-- ==== Sys2Proof/Word.lean ====
section
/-! DEFINITION. The two word types of the block: a byte and the 16-bit checksum (00_scope.md R5, R7). -/

namespace Sys2Proof

/-- A byte, bit 7 most significant (R7). -/
abbrev Byte := BitVec 8

/-- A 16-bit value, bit 15 most significant (R7). -/
abbrev Half := BitVec 16

end Sys2Proof
end

