-- ==== Sys2Proof/Config.lean ====
section
/-! DEFINITION. The constants of the wire format (00_scope.md R5), the parameters an instance fixes (R6), the
results the transport may answer with (20_memory.md R30 to R32), and the free values that stand for its draws. -/

namespace Sys2Proof

/-- `START`, the start delimiter (R5). -/
def START : Byte := 0xC0#8

/-- `END`, the end delimiter (R5). -/
def END : Byte := 0xC1#8

/-- `ESC`, the escape marker and the mask of an escaped byte (R5). -/
def ESC : Byte := 0x7D#8

/-- `EMPTY_READ_THRESHOLD` (R5), in the width of `EMPTY_CNT` (10_state.md R12). -/
def EMPTY_READ_THRESHOLD : BitVec 2 := 3#2

/-- A bound that may be absent: a natural number or `unbounded` (R6). -/
inductive Bound where
  | unbounded
  | atMost (n : Nat)
  deriving DecidableEq, Repr, Inhabited

/-- Whether a length is within a bound. -/
def Bound.admits : Bound → Nat → Bool
  | .unbounded, _ => true
  | .atMost n, len => len ≤ n

/-- `READ_ERROR_POLICY` (R6). -/
inductive ReadErrorPolicy where
  | fatal
  | tolerate
  deriving DecidableEq, Repr, Inhabited

/-- The parameters of an instance, fixed for its life (R6, 10_state.md R20). `ADDRESS`, `LINE_RATE` and
`READ_TIMEOUT` are OPEN's operands; `crc16` is the function of 40_checksum.md R56 (log 1). -/
structure Config where
  /-- `MAX_BODY_LEN` -/
  maxBody : Bound
  /-- `MAX_PAYLOAD_LEN` -/
  maxPayload : Bound
  /-- `READ_CAPACITY` -/
  readCapacity : Nat
  /-- `READ_ERROR_POLICY` -/
  readErrorPolicy : ReadErrorPolicy
  deriving DecidableEq, Repr, Inhabited

/-- The defaults of R6. -/
def Config.default : Config :=
  { maxBody := .unbounded, maxPayload := .unbounded, readCapacity := 1, readErrorPolicy := .fatal }

/-- A bound that R6 admits: a natural number of at least one, or `unbounded`. -/
def Bound.wf : Bound → Bool
  | .unbounded => true
  | .atMost n => 1 ≤ n

/-- The ranges R6 gives the parameters. -/
def Config.wf (c : Config) : Bool :=
  c.maxBody.wf && c.maxPayload.wf && decide (1 ≤ c.readCapacity)

/-- The transport's own error value: opaque to the block (60_exceptions.md R80, log 10). -/
abbrev TpError := Nat

/-- Result of `StreamRead` (20_memory.md R30). `bytes []` is the empty read. -/
inductive ReadResult where
  | bytes (bs : List Byte)
  | error (e : TpError)
  deriving DecidableEq, Repr, Inhabited

/-- Result of `StreamWrite` (20_memory.md R31). -/
inductive WriteResult where
  | written (n : Nat)
  | error (e : TpError)
  deriving DecidableEq, Repr, Inhabited

/-- Result of `StreamOpen` (20_memory.md R32). -/
inductive OpenResult where
  | handle
  | error (e : TpError)
  deriving DecidableEq, Repr, Inhabited

/-- FREE VALUE (log 3): what the transport answers to a read that no script covers, one value per draw. -/
opaque Config.freeRead : Nat → ReadResult

/-- FREE VALUE (log 3): what the transport answers to a write that no script covers. -/
opaque Config.freeWrite : Nat → WriteResult

/-- FREE VALUE (log 3): what the transport answers to an open that no script covers. -/
opaque Config.freeOpen : Nat → OpenResult

end Sys2Proof
end

