-- ==== Sys2Proof/Syntax.lean ====
section
/-! DEFINITION. The instructions: one constructor per row of spec/opcode_table.json, with the operands the row's
rule gives it (30_encoding.md R49, R50; 40 to 43). -/

namespace Sys2Proof

/-- The values of `RX_STATE` (10_state.md R11). -/
inductive RxState where
  | waitingForStart
  | capturing
  deriving DecidableEq, Repr, Inhabited

/-- The three values OPEN hands to the transport, opaque to the block (43_exchange.md R75, log 10). -/
structure OpenArgs where
  address : Nat
  lineRate : Nat
  readTimeout : Nat
  deriving DecidableEq, Repr, Inhabited

/-- The rows of the opcode table. `openStream` is OPEN. -/
inductive Instr where
  /-- APPEND_CRC, `op` 0 (40_checksum.md R58) -/
  | appendCrc (p : List Byte)
  /-- ENCODE_FRAME, `op` 1 (41_escape_wrap.md R63) -/
  | encodeFrame (x : List Byte)
  /-- DECODE_FRAME, `op` 2 (41_escape_wrap.md R65) -/
  | decodeFrame (b : List Byte)
  /-- VERIFY_CRC, `op` 3 (40_checksum.md R59) -/
  | verifyCrc (x : List Byte)
  /-- RECEIVE_FRAME, `op` 4; its `data_in` is ignored (42_receive.md R70) -/
  | receiveFrame
  /-- EXCHANGE, `op` 5 (43_exchange.md R76) -/
  | exchange (q : List Byte)
  /-- OPEN, `op` 6 (43_exchange.md R75) -/
  | openStream (a : OpenArgs)
  /-- RESERVED_OP7, `op` 7; its `data_in` is ignored (43_exchange.md R77) -/
  | reservedOp7
  /-- ESCAPE, stage 1 of ENCODE_FRAME (41_escape_wrap.md R61) -/
  | escape (x : List Byte)
  /-- WRAP, stage 2 of ENCODE_FRAME (41_escape_wrap.md R62) -/
  | wrap (e : List Byte)
  /-- STRIP_DELIMS, the slice (41_escape_wrap.md R64) -/
  | stripDelims (f : List Byte)
  /-- RX_READ, one read result (42_receive.md R69) -/
  | rxRead (r : ReadResult)
  /-- RX_START, 0xC0 while `WAITING_FOR_START` (42_receive.md R68) -/
  | rxStart
  /-- RX_NOISE, any other byte while `WAITING_FOR_START` (42_receive.md R68) -/
  | rxNoise (b : Byte)
  /-- RX_END, 0xC1 while `CAPTURING` (42_receive.md R68) -/
  | rxEnd
  /-- RX_BODY, any other byte while `CAPTURING` (42_receive.md R68) -/
  | rxBody (b : Byte)
  /-- DEC_ESC, 0x7D while `ESC_PEND` = 0 (41_escape_wrap.md R65) -/
  | decEsc
  /-- DEC_LITERAL, any other byte while `ESC_PEND` = 0 (41_escape_wrap.md R65) -/
  | decLiteral (c : Byte)
  /-- DEC_ESCAPED, any byte while `ESC_PEND` = 1 (41_escape_wrap.md R65) -/
  | decEscaped (c : Byte)
  /-- DEC_TRUNCATED, end of input while `ESC_PEND` = 1 (41_escape_wrap.md R65) -/
  | decTruncated
  /-- PAIR_START, the escape pair of 0xC0 (30_encoding.md R43) -/
  | pairStart
  /-- PAIR_END, the escape pair of 0xC1 (30_encoding.md R43) -/
  | pairEnd
  /-- PAIR_ESC, the escape pair of 0x7D (30_encoding.md R43) -/
  | pairEsc
  /-- LITERAL, one of the 253 other bytes (30_encoding.md R43) -/
  | literal (b : Byte)
  /-- FRAME_START, the first byte of a frame (30_encoding.md R41) -/
  | frameStart
  /-- FRAME_END, the last byte of a frame (30_encoding.md R41) -/
  | frameEnd
  deriving DecidableEq, Repr, Inhabited

end Sys2Proof
end

