-- ==== Sys2Proof/WellFormed.lean ====
section
/-! DEFINITION. Which instructions an instance with a given configuration can be given: input lengths
(20_memory.md R25), read lengths (R30), the slice's length (41_escape_wrap.md R64), and the byte values each class
and symbol admits (30_encoding.md R43, R46, R47). -/

namespace Sys2Proof

/-- `RESERVED`, the byte values that are escaped (00_scope.md R5). -/
def reserved (b : Byte) : Bool := b == START || b == END || b == ESC

/-- A read result that `StreamRead(cap)` can give (20_memory.md R30). -/
def ReadResult.within (cap : Nat) : ReadResult → Bool
  | .bytes bs => bs.length ≤ cap
  | .error _ => true

/-- The checks, one arm per row. -/
def Instr.wf (cfg : Config) : Instr → Bool
  | .appendCrc p => cfg.maxPayload.admits p.length
  | .encodeFrame x => cfg.maxPayload.admits x.length
  | .decodeFrame b => cfg.maxPayload.admits b.length
  | .verifyCrc x => cfg.maxPayload.admits x.length
  | .receiveFrame => true
  | .exchange q => cfg.maxPayload.admits q.length
  | .openStream _ => true
  | .reservedOp7 => true
  | .escape _ => true
  | .wrap _ => true
  | .stripDelims f => 2 ≤ f.length
  | .rxRead r => r.within cfg.readCapacity
  | .rxStart => true
  | .rxNoise b => b != START
  | .rxEnd => true
  | .rxBody b => b != END
  | .decEsc => true
  | .decLiteral c => c != ESC
  | .decEscaped _ => true
  | .decTruncated => true
  | .pairStart => true
  | .pairEnd => true
  | .pairEsc => true
  | .literal b => !reserved b
  | .frameStart => true
  | .frameEnd => true

end Sys2Proof
end

