-- ==== Sys2Proof/Decode.lean ====
section
/-! DEFINITION. The decoder and the encoder. A word selects a row only together with its context
(30_encoding.md R46, R47, R49): the format it arrives in, and `RX_STATE` or `ESC_PEND` for the two byte-class
formats. -/

namespace Sys2Proof

/-- `data_in` of a command: a byte sequence, or for OPEN the triple (30_encoding.md R49). -/
inductive DataIn where
  | bytes (bs : List Byte)
  | openArgs (a : OpenArgs)
  deriving DecidableEq, Repr, Inhabited

/-- Format CMD, one command on the `CMD` port (30_encoding.md R49). -/
structure Command where
  op : BitVec 3
  dataIn : DataIn
  deriving DecidableEq, Repr, Inhabited

/-- Format STAGE: zero bits wide, so the stage is named by whoever runs it (30_encoding.md R49). -/
inductive StageCall where
  | escape (x : List Byte)
  | wrap (e : List Byte)
  | stripDelims (f : List Byte)
  | rxRead (r : ReadResult)
  deriving DecidableEq, Repr, Inhabited

/-- What the decoder is given, one constructor per format of the table; `decEnd` is the end of the input of
DECODE_FRAME, which format DEC_BYTE encodes with no byte (30_encoding.md R47). -/
inductive Encoded where
  | cmd (c : Command)
  | stage (st : StageCall)
  | rxByte (b : Byte)
  | decByte (c : Byte)
  | decEnd
  | txSymbol (wire : List Byte)
  | txDelim (b : Byte)
  deriving DecidableEq, Repr, Inhabited

/-- The state that takes part in decoding (30_encoding.md R46, R47). -/
structure Context where
  rxState : RxState
  escPend : Bool
  deriving DecidableEq, Repr, Inhabited

/-- Why an encoding is no instruction. -/
inductive DecodeError where
  /-- `data_in` is a triple for an operation that takes bytes, or bytes for OPEN (R49, log 11). -/
  | operandShape
  /-- The decoder's input ended with `ESC_PEND` = 0: no row of R47. -/
  | endOfInput
  /-- A transmit symbol of no bytes. -/
  | emptySymbol
  /-- 0xC0 or 0xC1 where a transmit symbol begins: never emitted inside a body (R44). -/
  | bareDelimiter
  /-- 0x7D with no byte after it: not a transmit symbol (R43). -/
  | loneEscape
  /-- 0x7D and a byte that is not BD, BC or 00: the transmit side never emits it (R43). -/
  | nonCanonicalPair
  /-- Bytes left after one transmit symbol. -/
  | trailingBytes
  /-- A byte other than 0xC0 and 0xC1 where a delimiter is emitted (R41). -/
  | notADelimiter
  deriving DecidableEq, Repr, Inhabited

/-- What decoding answers: an instruction, or the reason why there is none. -/
inductive Decoded where
  | instr (i : Instr)
  | rejected (e : DecodeError)
  deriving DecidableEq, Repr

/-- The operation an `op` code selects (30_encoding.md R50). -/
def decodeCommand (c : Command) : Decoded :=
  match c.op.toNat, c.dataIn with
  | 0, .bytes p => .instr (.appendCrc p)
  | 1, .bytes x => .instr (.encodeFrame x)
  | 2, .bytes b => .instr (.decodeFrame b)
  | 3, .bytes x => .instr (.verifyCrc x)
  | 4, _ => .instr .receiveFrame
  | 5, .bytes q => .instr (.exchange q)
  | 6, .openArgs a => .instr (.openStream a)
  | 7, _ => .instr .reservedOp7
  | _, _ => .rejected .operandShape

/-- A stage is named, not encoded. -/
def decodeStage : StageCall → Instr
  | .escape x => .escape x
  | .wrap e => .wrap e
  | .stripDelims f => .stripDelims f
  | .rxRead r => .rxRead r

/-- The receive side's byte classes (30_encoding.md R46). -/
def decodeRxByte (st : RxState) (b : Byte) : Instr :=
  match st with
  | .waitingForStart => if b = START then .rxStart else .rxNoise b
  | .capturing => if b = END then .rxEnd else .rxBody b

/-- The unescape decoder's byte classes (30_encoding.md R47). -/
def decodeDecByte (escPend : Bool) (c : Byte) : Instr :=
  match escPend with
  | false => if c = ESC then .decEsc else .decLiteral c
  | true => .decEscaped c

/-- The first transmit symbol on a wire and the bytes after it; its length is told by its first byte
(30_encoding.md R43, R53). -/
def decodeTxSymbol : List Byte → Decoded × List Byte
  | [] => (.rejected .emptySymbol, [])
  | b :: rest =>
    if b = START ∨ b = END then (.rejected .bareDelimiter, rest)
    else if b = ESC then
      match rest with
      | [] => (.rejected .loneEscape, [])
      | x :: rest' =>
        if x = 0xBD#8 then (.instr .pairStart, rest')
        else if x = 0xBC#8 then (.instr .pairEnd, rest')
        else if x = 0x00#8 then (.instr .pairEsc, rest')
        else (.rejected .nonCanonicalPair, rest')
    else (.instr (.literal b), rest)

/-- The two delimiters (30_encoding.md R41). -/
def decodeTxDelim (b : Byte) : Decoded :=
  if b = START then .instr .frameStart
  else if b = END then .instr .frameEnd
  else .rejected .notADelimiter

/-- The decoder, total on every encoding in every context. -/
def decode (ctx : Context) : Encoded → Decoded
  | .cmd c => decodeCommand c
  | .stage st => .instr (decodeStage st)
  | .rxByte b => .instr (decodeRxByte ctx.rxState b)
  | .decByte c => .instr (decodeDecByte ctx.escPend c)
  | .decEnd => if ctx.escPend then .instr .decTruncated else .rejected .endOfInput
  | .txSymbol wire =>
    match decodeTxSymbol wire with
    | (.instr i, []) => .instr i
    | (.instr _, _ :: _) => .rejected .trailingBytes
    | (.rejected e, _) => .rejected e
  | .txDelim b => decodeTxDelim b

/-- The symbols of an escaped body, first to last (30_encoding.md R53): its decoding symbol by symbol. `fuel`
bounds the number of symbols; the body's length is enough. -/
def decodeSymbols : Nat → List Byte → Option (List Instr)
  | _, [] => some []
  | 0, _ :: _ => none
  | fuel + 1, wire =>
    match decodeTxSymbol wire with
    | (.instr i, rest) => (decodeSymbols fuel rest).map (i :: ·)
    | (.rejected _, _) => none

/-- The transmit symbol that stands for one byte of a checksummed payload (30_encoding.md R43). -/
def symbolOf (b : Byte) : Instr :=
  if b = START then .pairStart
  else if b = END then .pairEnd
  else if b = ESC then .pairEsc
  else .literal b

/-- The context a row belongs to (the "context" of the table's byte-class rows, R46, R47). -/
def Instr.inContext (ctx : Context) : Instr → Bool
  | .rxStart => ctx.rxState == .waitingForStart
  | .rxNoise _ => ctx.rxState == .waitingForStart
  | .rxEnd => ctx.rxState == .capturing
  | .rxBody _ => ctx.rxState == .capturing
  | .decEsc => !ctx.escPend
  | .decLiteral _ => !ctx.escPend
  | .decEscaped _ => ctx.escPend
  | .decTruncated => ctx.escPend
  | .appendCrc _ | .encodeFrame _ | .decodeFrame _ | .verifyCrc _ => true
  | .receiveFrame | .exchange _ | .openStream _ | .reservedOp7 => true
  | .escape _ | .wrap _ | .stripDelims _ | .rxRead _ => true
  | .pairStart | .pairEnd | .pairEsc | .literal _ | .frameStart | .frameEnd => true

/-- The encoder: the codes of R50, the classes of R46 and R47, the symbols of R43, the delimiters of R41. -/
def encode : Instr → Encoded
  | .appendCrc p => .cmd ⟨0#3, .bytes p⟩
  | .encodeFrame x => .cmd ⟨1#3, .bytes x⟩
  | .decodeFrame b => .cmd ⟨2#3, .bytes b⟩
  | .verifyCrc x => .cmd ⟨3#3, .bytes x⟩
  | .receiveFrame => .cmd ⟨4#3, .bytes []⟩
  | .exchange q => .cmd ⟨5#3, .bytes q⟩
  | .openStream a => .cmd ⟨6#3, .openArgs a⟩
  | .reservedOp7 => .cmd ⟨7#3, .bytes []⟩
  | .escape x => .stage (.escape x)
  | .wrap e => .stage (.wrap e)
  | .stripDelims f => .stage (.stripDelims f)
  | .rxRead r => .stage (.rxRead r)
  | .rxStart => .rxByte 0xC0#8
  | .rxNoise b => .rxByte b
  | .rxEnd => .rxByte 0xC1#8
  | .rxBody b => .rxByte b
  | .decEsc => .decByte 0x7D#8
  | .decLiteral c => .decByte c
  | .decEscaped c => .decByte c
  | .decTruncated => .decEnd
  | .pairStart => .txSymbol [0x7D#8, 0xBD#8]
  | .pairEnd => .txSymbol [0x7D#8, 0xBC#8]
  | .pairEsc => .txSymbol [0x7D#8, 0x00#8]
  | .literal b => .txSymbol [b]
  | .frameStart => .txDelim 0xC0#8
  | .frameEnd => .txDelim 0xC1#8

/-- The bits of a list of wire bytes as one number, the first byte in the highest place (30_encoding.md R43). -/
def bytesToNat (bs : List Byte) : Nat := bs.foldl (fun n b => n * 256 + b.toNat) 0

/-- The width in bits and the value of an encoding, as spec/opcode_table.json numbers its bits. -/
def Encoded.tableWord : Encoded → Nat × Nat
  | .cmd c => (3, c.op.toNat)
  | .stage _ => (0, 0)
  | .rxByte b => (8, b.toNat)
  | .decByte c => (8, c.toNat)
  | .decEnd => (0, 0)
  | .txSymbol wire => (8 * wire.length, bytesToNat wire)
  | .txDelim b => (8, b.toNat)

/-- A row of the table: its mnemonic, `match` and `mask`. -/
structure Row where
  mnemonic : String
  matchBits : Nat
  mask : Nat
  deriving DecidableEq, Repr

/-- The row of the table an instruction stands for. -/
def Instr.row : Instr → Row
  | .appendCrc _ => ⟨"APPEND_CRC", 0, 7⟩
  | .encodeFrame _ => ⟨"ENCODE_FRAME", 1, 7⟩
  | .decodeFrame _ => ⟨"DECODE_FRAME", 2, 7⟩
  | .verifyCrc _ => ⟨"VERIFY_CRC", 3, 7⟩
  | .receiveFrame => ⟨"RECEIVE_FRAME", 4, 7⟩
  | .exchange _ => ⟨"EXCHANGE", 5, 7⟩
  | .openStream _ => ⟨"OPEN", 6, 7⟩
  | .reservedOp7 => ⟨"RESERVED_OP7", 7, 7⟩
  | .escape _ => ⟨"ESCAPE", 0, 0⟩
  | .wrap _ => ⟨"WRAP", 0, 0⟩
  | .stripDelims _ => ⟨"STRIP_DELIMS", 0, 0⟩
  | .rxRead _ => ⟨"RX_READ", 0, 0⟩
  | .rxStart => ⟨"RX_START", 192, 255⟩
  | .rxNoise _ => ⟨"RX_NOISE", 0, 0⟩
  | .rxEnd => ⟨"RX_END", 193, 255⟩
  | .rxBody _ => ⟨"RX_BODY", 0, 0⟩
  | .decEsc => ⟨"DEC_ESC", 125, 255⟩
  | .decLiteral _ => ⟨"DEC_LITERAL", 0, 0⟩
  | .decEscaped _ => ⟨"DEC_ESCAPED", 0, 0⟩
  | .decTruncated => ⟨"DEC_TRUNCATED", 0, 0⟩
  | .pairStart => ⟨"PAIR_START", 32189, 65535⟩
  | .pairEnd => ⟨"PAIR_END", 32188, 65535⟩
  | .pairEsc => ⟨"PAIR_ESC", 32000, 65535⟩
  | .literal _ => ⟨"LITERAL", 0, 0⟩
  | .frameStart => ⟨"FRAME_START", 192, 255⟩
  | .frameEnd => ⟨"FRAME_END", 193, 255⟩

/-- Whether a word has a row's fixed bits. -/
def Row.matches (r : Row) (w : Nat) : Bool := (w &&& r.mask) == r.matchBits

/-- The context and encoding chosen for a bare table word (log 12). The table gives several rows one word; the
first row of the table whose fixed bits the word has is taken, the catch-alls after them:
no bits, ESCAPE; one byte, the command codes, then RX_START, RX_END, DEC_ESC, then RX_NOISE;
two bytes, a transmit symbol with its first byte in bits 15 to 8 (30_encoding.md R43). -/
def tableCandidate (nbits w : Nat) : Option (Context × Encoded) :=
  if nbits = 0 then some (⟨.waitingForStart, false⟩, .stage (.escape []))
  else if nbits ≤ 8 then
    let b : Byte := BitVec.ofNat 8 w
    if w < 8 then
      let op : BitVec 3 := BitVec.ofNat 3 w
      some (⟨.waitingForStart, false⟩, .cmd ⟨op, if w = 6 then .openArgs ⟨0, 0, 0⟩ else .bytes []⟩)
    else if w = 0xC1 then some (⟨.capturing, false⟩, .rxByte b)
    else if w = 0x7D then some (⟨.waitingForStart, false⟩, .decByte b)
    else some (⟨.waitingForStart, false⟩, .rxByte b)
  else if nbits ≤ 16 then
    some (⟨.waitingForStart, false⟩, .txSymbol [BitVec.ofNat 8 (w / 256), BitVec.ofNat 8 w])
  else none

/-- The instruction the decoder reads from a table word (log 12). -/
def decodeTableWord (nbits w : Nat) : Option Instr :=
  match tableCandidate nbits w with
  | none => none
  | some (ctx, e) =>
    match decode ctx e with
    | .instr i => some i
    | .rejected _ => none

end Sys2Proof
end

