-- ==== Sys2Proof/Machine/State.lean ====
section
/-! DEFINITION. What the machine holds: the block's registers (10_state.md R11 to R16), its configuration
(00_scope.md R6), and the two agents it talks to, the caller and the transport (10_state.md R9, R10). Why a step
may not exist, and the state after reset (10_state.md R24). -/

namespace Sys2Proof.Machine

/-- One outcome on the `RSP` port: `status` and `data_out` (30_encoding.md R51). -/
structure Response where
  status : BitVec 4
  dataOut : List Byte
  deriving DecidableEq, Repr, Inhabited

/-- The capture buffer, the block's only memory (10_state.md R13, 20_memory.md R26). -/
structure Memory where
  /-- `CAPBUF` -/
  capBuf : List Byte
  /-- `CAPLEN` -/
  capLen : Nat
  deriving DecidableEq, Repr, Inhabited

/-- `CAPLEN = len(CAPBUF)`, within `MAX_BODY_LEN` (10_state.md R13). -/
abbrev Memory.wf (bound : Bound) (m : Memory) : Prop :=
  m.capLen = m.capBuf.length ∧ bound.admits m.capLen = true

/-- The sequences EXCHANGE passes from step to step (10_state.md R16 (c), 43_exchange.md R76). -/
structure Intermediates where
  /-- `X`, the checksummed payload -/
  x : List Byte
  /-- `F`, the encoded frame -/
  f : List Byte
  /-- `B`, the received body -/
  b : List Byte
  /-- `Y`, the decoded body -/
  y : List Byte
  deriving DecidableEq, Repr, Inhabited

/-- One call on the `TP` port with its result (43_exchange.md R78). -/
inductive TpCall where
  | opened (a : OpenArgs) (r : OpenResult)
  | wrote (bs : List Byte) (r : WriteResult)
  | read (cap : Nat) (r : ReadResult)
  deriving DecidableEq, Repr, Inhabited

/-- The transport agent (10_state.md R9 (c), R23 (c)): scripts of the results it will give, and what it holds. -/
structure Transport where
  /-- results of the `StreamOpen` calls to come, first one first -/
  opens : List OpenResult
  /-- results of the `StreamWrite` calls to come -/
  writes : List WriteResult
  /-- results of the `StreamRead` calls to come: the receive queue -/
  reads : List ReadResult
  /-- what a successful `StreamOpen` was given (43_exchange.md R75) -/
  settings : Option OpenArgs
  /-- how many free draws were taken (log 3) -/
  drawn : Nat
  /-- the calls made so far, newest first (log 9) -/
  log : List TpCall
  deriving DecidableEq, Repr, Inhabited

/-- What the caller, and the reset input, will do (log 5). -/
inductive CallerEvent where
  /-- issue a command once no operation is running -/
  | call (c : Command)
  /-- drive a command on the `CMD` port at once, whatever `BUSY` is -/
  | force (c : Command)
  /-- drive one inner row (a stage, a byte, a symbol) on its own (log 6) -/
  | inner (e : Encoded)
  /-- let the block take one step of its own -/
  | tick
  /-- the reset event (70_reset_and_hazards.md R102) -/
  | reset
  deriving DecidableEq, Repr, Inhabited

/-- The whole machine. -/
@[ext]
structure State where
  /-- the parameters, written by no step (10_state.md R20) -/
  cfg : Config
  /-- `RX_STATE` (R11) -/
  rxState : RxState
  /-- `EMPTY_CNT` (R12) -/
  emptyCnt : BitVec 2
  /-- `CAPBUF` and `CAPLEN` (R13) -/
  mem : Memory
  /-- `OPENED` (R14) -/
  opened : Bool
  /-- `BUSY` (R15) -/
  busy : Bool
  /-- `EXCH_STEP` (R15) -/
  exchStep : BitVec 3
  /-- `CRC_ACC` (R16 (a)) -/
  crcAcc : Half
  /-- `ESC_PEND` (R16 (b)) -/
  escPend : Bool
  /-- the intermediates of EXCHANGE (R16 (c)) -/
  inter : Intermediates
  /-- the sequence the inner rows emit into when they run on their own (log 6) -/
  out : List Byte
  /-- a walk of decoder rows driven one by one is under way: `ESC_PEND` and `out` are its own (log 6) -/
  walking : Bool
  /-- outcomes delivered on `RSP`, newest first (R10, log 9) -/
  rsp : List Response
  /-- the transport (R9 (c)) -/
  line : Transport
  /-- the caller (R9 (b)) and the reset input -/
  caller : List CallerEvent
  deriving DecidableEq, Repr, Inhabited

/-- Why the machine stops with a fault. It has no constructor: every failure of the spec is an outcome delivered on
`RSP`, after which the block takes the next command (60_exceptions.md R91, R93), so nobody raises a fault. Safe. -/
inductive Fault where
  deriving DecidableEq, Repr

/-- Why a step does not exist. -/
inductive Refusal where
  /-- Raised by an arm of `exec` for an instruction without a meaning; none is left. Safe. -/
  | notModelled (mnemonic : String)
  /-- Raised by every command, and by every stage, symbol and decoder row, while an operation runs: "a command on
  the `CMD` port has no step" while `BUSY = 1` (70_reset_and_hazards.md R105, D15). Safe. -/
  | commandWhileBusy
  /-- Raised by OPEN while `OPENED = 1`: "a model refuses it" (43_exchange.md R75, D16). Safe. -/
  | openWhileOpen
  /-- Raised by APPEND_CRC, ENCODE_FRAME, DECODE_FRAME, VERIFY_CRC and EXCHANGE for a `data_in` longer than
  `MAX_PAYLOAD_LEN`: "the command has no step" (20_memory.md R25, D22). Safe. -/
  | inputTooLong
  /-- Raised by a byte-class row whose context does not hold: the byte belongs to another row then
  (30_encoding.md R46, R47); by the receive rows while no receive runs (42_receive.md, "both run only inside
  RECEIVE_FRAME and inside step 4 of EXCHANGE"). Safe. -/
  | outOfContext
  /-- Raised by a row whose operand the row does not admit: a byte value of another row, a slice of fewer than two
  bytes, a read longer than `READ_CAPACITY` (R43, R46, R47, R64, R30). Safe. -/
  | illFormed
  /-- Raised by `step` for an encoding that is no instruction. Safe. -/
  | undecodable (e : DecodeError)
  deriving DecidableEq, Repr

/-- The transport before anything happened: empty scripts, nothing logged (log 3, log 9). -/
def Transport.idle : Transport :=
  { opens := [], writes := [], reads := [], settings := none, drawn := 0, log := [] }

/-- The machine right after reset (10_state.md R24), with the parameters' defaults (00_scope.md R6), nothing
scripted and nothing asked; the transient elements as log 8 says. -/
def State.reset : State :=
  { cfg := Config.default
    rxState := .waitingForStart
    emptyCnt := 0#2
    mem := { capBuf := [], capLen := 0 }
    opened := false
    busy := false
    exchStep := 0#3
    crcAcc := 0#16
    escPend := false
    inter := { x := [], f := [], b := [], y := [] }
    out := []
    walking := false
    rsp := []
    line := Transport.idle
    caller := [] }

end Sys2Proof.Machine
end

