-- ==== Sys2Proof/Machine/Flags.lean ====
section
/-! DEFINITION. What takes the place of flags (10_state.md R19): the failures and their status codes
(60_exceptions.md R80), outcomes, and the two tests on counters (R12, R13). -/

namespace Sys2Proof.Machine

/-- The failures (60_exceptions.md R80). -/
inductive Failure where
  | emptyInput
  | openError
  | writeError
  | receiveTimeout
  | checksumMismatch
  | truncatedEscape
  | frameTooLarge
  | readError
  | notOpen
  | illegalOp
  deriving DecidableEq, Repr, Inhabited

/-- The `status` code of a failure (60_exceptions.md R80). -/
def Failure.code : Failure → BitVec 4
  | .emptyInput => 1#4
  | .openError => 2#4
  | .writeError => 3#4
  | .receiveTimeout => 4#4
  | .checksumMismatch => 5#4
  | .truncatedEscape => 6#4
  | .frameTooLarge => 7#4
  | .readError => 8#4
  | .notOpen => 9#4
  | .illegalOp => 10#4

/-- How an operation ends: `ok(data)` or `fail(F, data)` (00_scope.md R7). -/
inductive Verdict where
  | ok (data : List Byte)
  | fail (f : Failure) (data : List Byte)
  deriving DecidableEq, Repr, Inhabited

/-- The outcome as the `RSP` port carries it (30_encoding.md R51). -/
def Verdict.response : Verdict → Response
  | .ok data => ⟨0#4, data⟩
  | .fail f data => ⟨f.code, data⟩

/-- What one byte or one read of a receive yields (42_receive.md R68, R69). -/
inductive RxYield where
  | goOn
  | done (body : List Byte)
  | raised (f : Failure)
  deriving DecidableEq, Repr, Inhabited

/-- `MAX_BODY_LEN != unbounded and CAPLEN = MAX_BODY_LEN` (42_receive.md R68). -/
def captureFull (bound : Bound) (m : Memory) : Bool :=
  match bound with
  | .unbounded => false
  | .atMost n => m.capLen == n

/-- `EMPTY_CNT = 3` (42_receive.md R69). -/
def emptyCntExpired (c : BitVec 2) : Bool := c == EMPTY_READ_THRESHOLD

/-- A receive is running: RECEIVE_FRAME (`EXCH_STEP` 0) or step 4 of EXCHANGE. Every other operation is over
within its step, so at a step boundary `BUSY` says as much (log 2). -/
def State.receiving (s : State) : Bool := s.busy && (s.exchStep == 0#3 || s.exchStep == 4#3)

/-- `ESC_PEND` as a decoder row driven on its own finds it: what an earlier row of the walk under way wrote, and 0,
with which DECODE_FRAME begins its walk (41_escape_wrap.md R65), where no walk is under way. So nothing reads
`ESC_PEND` before it was written (70_reset_and_hazards.md R103, log 6). -/
def State.escPending (s : State) : Bool := !s.busy && s.walking && s.escPend

end Sys2Proof.Machine
end

