-- ==== Sys2Proof/Machine/Operands.lean ====
section
/-! DEFINITION. The block's operand computations (30_encoding.md R48): the split of the checksum and the escape
operand; and the values the transmit side emits for one byte (R43). -/

namespace Sys2Proof.Machine

/-- `lo(v) = v[7:0]` (00_scope.md R7). -/
def lo (v : Half) : Byte := v.extractLsb' 0 8

/-- `hi(v) = v[15:8]` (00_scope.md R7). -/
def hi (v : Half) : Byte := v.extractLsb' 8 8

/-- `b ^ 0x7D`, the same on transmit and on receive (R48). -/
def escapeOperand (b : Byte) : Byte := b ^^^ ESC

/-- The escape pair of a reserved byte (R43). -/
def escapePair (b : Byte) : List Byte := [ESC, escapeOperand b]

/-- What the transmit side emits for one input byte (R43). -/
def escapeByte (b : Byte) : List Byte := if reserved b then escapePair b else [b]

end Sys2Proof.Machine
end

