-- ==== Sys2Proof/Machine/Ops.lean ====
section
/-! DEFINITION. The shared operations: the capture buffer's accesses (20_memory.md R26 to R28), the transport's
calls (R30 to R32), the outcome of an operation and failure entry (60_exceptions.md R91), the entry and exit of a
receive (42_receive.md R70), the reset event (70_reset_and_hazards.md R102), and the guards of commands and inner
rows. -/

namespace Sys2Proof.Machine

/-! ### Writes of one element -/

/-- `RX_STATE <- v` -/
def setRxState (v : RxState) (s : State) : State := { s with rxState := v }

/-- `EMPTY_CNT <- v` -/
def setEmptyCnt (v : BitVec 2) (s : State) : State := { s with emptyCnt := v }

/-- the capture buffer and its fill count -/
def setMem (v : Memory) (s : State) : State := { s with mem := v }

/-- `OPENED <- v` -/
def setOpened (v : Bool) (s : State) : State := { s with opened := v }

/-- `BUSY <- v` -/
def setBusy (v : Bool) (s : State) : State := { s with busy := v }

/-- `EXCH_STEP <- v` -/
def setExchStep (v : BitVec 3) (s : State) : State := { s with exchStep := v }

/-- `CRC_ACC <- v` -/
def setCrcAcc (v : Half) (s : State) : State := { s with crcAcc := v }

/-- `ESC_PEND <- v` -/
def setEscPend (v : Bool) (s : State) : State := { s with escPend := v }

/-- the intermediates of EXCHANGE -/
def setInter (v : Intermediates) (s : State) : State := { s with inter := v }

/-- the sequence the inner rows emit into -/
def setOut (v : List Byte) (s : State) : State := { s with out := v }

/-- whether a walk of decoder rows driven one by one is under way -/
def setWalking (v : Bool) (s : State) : State := { s with walking := v }

/-- the outcomes delivered -/
def setRsp (v : List Response) (s : State) : State := { s with rsp := v }

/-- the transport -/
def setLine (v : Transport) (s : State) : State := { s with line := v }

/-- the caller's events -/
def setCaller (v : List CallerEvent) (s : State) : State := { s with caller := v }

/-! ### The capture buffer -/

/-- The cleared capture buffer. -/
def Memory.empty : Memory := { capBuf := [], capLen := 0 }

/-- One byte more at the end of the capture buffer. -/
def Memory.append (b : Byte) (m : Memory) : Memory := { capBuf := m.capBuf ++ [b], capLen := m.capLen + 1 }

/-- `BufClear()` (20_memory.md R28). -/
def bufClear (s : State) : State := setMem Memory.empty s

/-- `BufAppend(b)` (20_memory.md R27). -/
def bufAppend (b : Byte) (s : State) : State := setMem (s.mem.append b) s

/-- `MemRead(i, 1)`: byte `i` of the capture buffer, for `i < CAPLEN` (00_scope.md R7). -/
def memRead (s : State) (i : Nat) : Option Byte := if i < s.mem.capLen then s.mem.capBuf[i]? else none

/-! ### The transport -/

/-- A read hands over at most `cap` bytes; the bytes beyond them stay in the queue (20_memory.md R30, R35, log 4). -/
def splitRead (cap : Nat) : ReadResult → ReadResult × List ReadResult
  | .error e => (.error e, [])
  | .bytes bs => (.bytes (bs.take cap), if bs.length ≤ cap then [] else [.bytes (bs.drop cap)])

/-- A call goes into the record of calls (log 9). -/
def Transport.note (c : TpCall) (t : Transport) : Transport := { t with log := c :: t.log }

/-- What the transport answers to a read, and the transport after it: the next scripted result, or a free draw
(20_memory.md R30, log 3). The rest of a scripted result longer than `cap` stays queued; a free value longer than
`cap` stands for the draw of its first `cap` bytes, and its rest is no part of the line (DESIGN CHOICE, log 4). -/
def Transport.read (cap : Nat) (t : Transport) : ReadResult × Transport :=
  match t.reads with
  | r :: rest => ((splitRead cap r).1, { t with reads := (splitRead cap r).2 ++ rest })
  | [] => ((splitRead cap (Config.freeRead t.drawn)).1, { t with drawn := t.drawn + 1 })

/-- `StreamRead(READ_CAPACITY)` (20_memory.md R30). -/
def streamRead (s : State) : State × ReadResult :=
  let (r, line) := s.line.read s.cfg.readCapacity
  (setLine (line.note (.read s.cfg.readCapacity r)) s, r)

/-- `Written(n)` has `n <= len(bs)` (20_memory.md R31, log 4). -/
def clipWrite (len : Nat) : WriteResult → WriteResult
  | .written n => .written (min n len)
  | .error e => .error e

/-- What the transport answers to a write of `len` bytes, and the transport after it. -/
def Transport.write (len : Nat) (t : Transport) : WriteResult × Transport :=
  match t.writes with
  | w :: rest => (clipWrite len w, { t with writes := rest })
  | [] => (clipWrite len (Config.freeWrite t.drawn), { t with drawn := t.drawn + 1 })

/-- `StreamWrite(bs)` (20_memory.md R31). -/
def streamWrite (bs : List Byte) (s : State) : State × WriteResult :=
  let (w, line) := s.line.write bs.length
  (setLine (line.note (.wrote bs w)) s, w)

/-- What the transport answers to an open, and the transport after it. -/
def Transport.openNext (t : Transport) : OpenResult × Transport :=
  match t.opens with
  | r :: rest => (r, { t with opens := rest })
  | [] => (Config.freeOpen t.drawn, { t with drawn := t.drawn + 1 })

/-- The transport keeps what a successful open was given (43_exchange.md R75). -/
def Transport.settle (a : OpenArgs) (r : OpenResult) (t : Transport) : Transport :=
  match r with
  | .handle => { t with settings := some a }
  | .error _ => t

/-- `StreamOpen(address, rate, timeout)` (20_memory.md R32). -/
def streamOpen (a : OpenArgs) (s : State) : State × OpenResult :=
  let (r, line) := s.line.openNext
  (setLine ((line.settle a r).note (.opened a r)) s, r)

/-! ### Outcomes -/

/-- An outcome goes out on `RSP` and `BUSY` returns to 0 (10_state.md R15). -/
def deliver (r : Response) (s : State) : State := setBusy false (setRsp (r :: s.rsp) s)

/-- Entry and exit of a receive: `RX_STATE`, `EMPTY_CNT` and the capture buffer at their initial values
(42_receive.md R70). -/
def receiveInit (s : State) : State :=
  bufClear (setEmptyCnt 0#2 (setRxState .waitingForStart s))

/-- Failure entry (60_exceptions.md R91): the receive's clean-up if one was in progress, `EXCH_STEP` to 0, the
outcome delivered, `BUSY` to 0. `OPENED` stays. There is no return from it (R93): the block is idle. -/
def takeFailure (inReceive : Bool) (f : Failure) (data : List Byte) (s : State) : State :=
  deliver (Verdict.fail f data).response (setExchStep 0#3 (if inReceive then receiveInit s else s))

/-- The end of an operation that is not a receive: its result, or failure entry. -/
def conclude (v : Verdict) (s : State) : State :=
  match v with
  | .ok data => deliver (Verdict.ok data).response s
  | .fail f data => takeFailure false f data s

/-! ### Reset -/

/-- The reset event (70_reset_and_hazards.md R102): every state element at its reset value, a running operation
abandoned without an outcome, the transport untouched. The configuration, what the caller has already been told and
what it will do are outside the block. -/
def applyReset (s : State) : State :=
  { State.reset with cfg := s.cfg, rsp := s.rsp, line := s.line, caller := s.caller }

/-! ### Guards -/

/-- A command is accepted while `BUSY = 0` (10_state.md R15); then `BUSY` is 1. -/
def accept (s : State) (k : State → Host.Outcome State Fault Refusal) : Host.Outcome State Fault Refusal :=
  if s.busy then .refused .commandWhileBusy else k (setBusy true s)

/-- A command with a bounded input (20_memory.md R25). -/
def acceptBytes (data : List Byte) (s : State) (k : State → Host.Outcome State Fault Refusal) :
    Host.Outcome State Fault Refusal :=
  if s.busy then .refused .commandWhileBusy
  else if s.cfg.maxPayload.admits data.length then k (setBusy true s)
  else .refused .inputTooLong

/-- A stage, symbol or decoder row driven on its own, while no operation runs (log 6): `admitted` says whether the
operand is the row's, `here` whether the context is. -/
def innerRow (admitted here : Bool) (s t : State) : Host.Outcome State Fault Refusal :=
  if s.busy then .refused .commandWhileBusy
  else if !admitted then .refused .illFormed
  else if !here then .refused .outOfContext
  else .next t

end Sys2Proof.Machine
end

