-- ==== Sys2Proof/Machine/Checksum.lean ====
section
/-! DEFINITION. The checksum function (40_checksum.md R56), APPEND_CRC (R58) and VERIFY_CRC (R59). -/

namespace Sys2Proof.Machine

/-- One of the eight shift steps: the bit shifted out decides whether 0xA001 is added (R56). -/
def crcShift (acc : Half) : Half :=
  if acc.getLsbD 0 then (acc >>> 1) ^^^ 0xA001#16 else acc >>> 1

/-- `repeat 8 times` (R56). -/
def crcShift8 (acc : Half) : Half :=
  crcShift (crcShift (crcShift (crcShift (crcShift (crcShift (crcShift (crcShift acc)))))))

/-- One byte enters the low byte of `CRC_ACC`, then eight shift steps (R56). -/
def crcByte (acc : Half) (b : Byte) : Half := crcShift8 (acc ^^^ b.setWidth 16)

/-- `crc16(s)` (R56, log 1). -/
def crc16 (s : List Byte) : Half := s.foldl crcByte 0xFFFF#16

/-- `Table[i]` of the table-driven form (R56). -/
def crcTable (i : Byte) : Half := crcShift8 (i.setWidth 16)

/-- The per-byte step of the table-driven form (R56). -/
def crcByteByTable (acc : Half) (b : Byte) : Half :=
  (acc >>> 8) ^^^ crcTable (lo (acc ^^^ b.setWidth 16))

/-- The table-driven form of `crc16` (R56). -/
def crc16ByTable (s : List Byte) : Half := s.foldl crcByteByTable 0xFFFF#16

/-- `CRC16_LE(P)` (30_encoding.md R55 (b)): the checksum's bytes, low byte first (20_memory.md R33). -/
def crc16LE (p : List Byte) : List Byte := [lo (crc16 p), hi (crc16 p)]

/-- APPEND_CRC as a function of its input (R58). -/
def appendCrc (p : List Byte) : Verdict :=
  if p.isEmpty then .fail .emptyInput [] else .ok (p ++ crc16LE p)

/-- The input without its last two bytes, `[]` when it is shorter than two (R59). -/
def stripCrc (x : List Byte) : List Byte := if 2 ≤ x.length then x.take (x.length - 2) else []

/-- VERIFY_CRC as a function of its input (R59): the self-check over the entire input. -/
def verifyCrc (x : List Byte) : Verdict :=
  if x.isEmpty then .fail .emptyInput []
  else if crc16 x = 0#16 then .ok (stripCrc x)
  else .fail .checksumMismatch (stripCrc x)

/-- `CRC_ACC` after an operation that computes the checksum of a non-empty input: nothing resets it
(10_state.md R16 (a), log 8). -/
def computeCrc (data : List Byte) (s : State) : State :=
  if data.isEmpty then s else setCrcAcc (crc16 data) s

/-- APPEND_CRC (R58). -/
def execAppendCrc (p : List Byte) (s : State) : Host.Outcome State Fault Refusal :=
  acceptBytes p s fun s => .next (conclude (appendCrc p) (computeCrc p s))

/-- VERIFY_CRC (R59). -/
def execVerifyCrc (x : List Byte) (s : State) : Host.Outcome State Fault Refusal :=
  acceptBytes x s fun s => .next (conclude (verifyCrc x) (computeCrc x s))

end Sys2Proof.Machine
end

