-- ==== Sys2Proof/Machine/EscapeWrap.lean ====
section
/-! DEFINITION. The byte-escape encoder and decoder and the delimiter wrapper (41_escape_wrap.md R61 to R65), as
functions, as commands, and row by row: the transmit symbols and delimiters (30_encoding.md R41, R43) and the
decoder's byte classes (R47). -/

namespace Sys2Proof.Machine

/-- `ESCAPE(X)` (R61). -/
def escape (x : List Byte) : List Byte := x.flatMap escapeByte

/-- `WRAP(E)` (R62). -/
def wrap (e : List Byte) : List Byte := [START] ++ e ++ [END]

/-- `STRIP_DELIMS(F) = F[1 .. len(F)-1)` (R64), for `len(F) >= 2`. -/
def stripDelims (f : List Byte) : List Byte := (f.drop 1).take (f.length - 2)

/-- ENCODE_FRAME as a function of its input (R63). -/
def encodeFrame (x : List Byte) : Verdict :=
  if x.isEmpty then .fail .emptyInput [] else .ok (wrap (escape x))

/-- The decoder's working state: `ESC_PEND` and `out` (R65). -/
structure Walk where
  escPend : Bool
  out : List Byte
  deriving DecidableEq, Repr, Inhabited

/-- Class DEC_ESC: the marker is dropped, `ESC_PEND` set (R65). -/
def Walk.marker (w : Walk) : Walk := { w with escPend := true }

/-- Class DEC_LITERAL: the byte is emitted unchanged (R65). -/
def Walk.literal (c : Byte) (w : Walk) : Walk := { w with out := w.out ++ [c] }

/-- Class DEC_ESCAPED: the byte XOR 0x7D is emitted, `ESC_PEND` cleared (R65). -/
def Walk.escaped (c : Byte) (w : Walk) : Walk := { escPend := false, out := w.out ++ [escapeOperand c] }

/-- One byte of the walk (R65). -/
def Walk.byte (w : Walk) (c : Byte) : Walk :=
  if w.escPend then w.escaped c
  else if c = ESC then w.marker
  else w.literal c

/-- The walk over a body from `out <- []`, `ESC_PEND <- 0` (R65). -/
def decodeWalk (b : List Byte) : Walk := b.foldl Walk.byte { escPend := false, out := [] }

/-- DECODE_FRAME as a function of its input (R65). -/
def decodeFrame (b : List Byte) : Verdict :=
  if b.isEmpty then .fail .emptyInput []
  else if (decodeWalk b).escPend then .fail .truncatedEscape []
  else .ok (decodeWalk b).out

/-- `ESC_PEND` after a walk over a non-empty body (R65). It ends a walk that was driven row by row (log 6). -/
def walkBody (b : List Byte) (s : State) : State :=
  if b.isEmpty then s else setWalking false (setEscPend (decodeWalk b).escPend s)

/-- ENCODE_FRAME (R63). -/
def execEncodeFrame (x : List Byte) (s : State) : Host.Outcome State Fault Refusal :=
  acceptBytes x s fun s => .next (conclude (encodeFrame x) s)

/-- DECODE_FRAME (R65). -/
def execDecodeFrame (b : List Byte) (s : State) : Host.Outcome State Fault Refusal :=
  acceptBytes b s fun s => .next (conclude (decodeFrame b) (walkBody b s))

/-! ### The stages and symbols on their own (log 6) -/

/-- A stage's result replaces `out`. -/
def yieldOut (bs : List Byte) (s : State) : State := setOut bs s

/-- A symbol's bytes are added to `out` (R61: `out <- out ++ ...`). -/
def emit (bs : List Byte) (s : State) : State := setOut (s.out ++ bs) s

/-- ESCAPE (R61). -/
def execEscape (x : List Byte) (s : State) : Host.Outcome State Fault Refusal :=
  innerRow true true s (yieldOut (escape x) s)

/-- WRAP (R62). -/
def execWrap (e : List Byte) (s : State) : Host.Outcome State Fault Refusal :=
  innerRow true true s (yieldOut (wrap e) s)

/-- STRIP_DELIMS (R64). -/
def execStripDelims (f : List Byte) (s : State) : Host.Outcome State Fault Refusal :=
  innerRow (2 ≤ f.length) true s (yieldOut (stripDelims f) s)

/-- PAIR_START (30_encoding.md R43). -/
def execPairStart (s : State) : Host.Outcome State Fault Refusal :=
  innerRow true true s (emit (escapePair START) s)

/-- PAIR_END (30_encoding.md R43). -/
def execPairEnd (s : State) : Host.Outcome State Fault Refusal :=
  innerRow true true s (emit (escapePair END) s)

/-- PAIR_ESC (30_encoding.md R43). -/
def execPairEsc (s : State) : Host.Outcome State Fault Refusal :=
  innerRow true true s (emit (escapePair ESC) s)

/-- LITERAL (30_encoding.md R43). -/
def execLiteral (b : Byte) (s : State) : Host.Outcome State Fault Refusal :=
  innerRow (!reserved b) true s (emit [b] s)

/-- FRAME_START (30_encoding.md R41). -/
def execFrameStart (s : State) : Host.Outcome State Fault Refusal :=
  innerRow true true s (emit [START] s)

/-- FRAME_END (30_encoding.md R41). -/
def execFrameEnd (s : State) : Host.Outcome State Fault Refusal :=
  innerRow true true s (emit [END] s)

/-! ### The decoder's byte classes on their own (log 6) -/

/-- The walk under way; where none is, the beginning of one: `out <- []`, `ESC_PEND <- 0` (R65). -/
def walkOf (s : State) : Walk :=
  if s.walking then { escPend := s.escPend, out := s.out } else { escPend := false, out := [] }

/-- The machine with a walk under way. -/
def withWalk (w : Walk) (s : State) : State := setOut w.out (setEscPend w.escPend (setWalking true s))

/-- DEC_ESC (30_encoding.md R47). -/
def execDecEsc (s : State) : Host.Outcome State Fault Refusal :=
  innerRow true (!s.escPending) s (withWalk (walkOf s).marker s)

/-- DEC_LITERAL (30_encoding.md R47). -/
def execDecLiteral (c : Byte) (s : State) : Host.Outcome State Fault Refusal :=
  innerRow (c != ESC) (!s.escPending) s (withWalk ((walkOf s).literal c) s)

/-- DEC_ESCAPED (30_encoding.md R47). -/
def execDecEscaped (c : Byte) (s : State) : Host.Outcome State Fault Refusal :=
  innerRow true s.escPending s (withWalk ((walkOf s).escaped c) s)

/-- DEC_TRUNCATED: the walk ends in `TruncatedEscape` (30_encoding.md R47, 60_exceptions.md R86). -/
def execDecTruncated (s : State) : Host.Outcome State Fault Refusal :=
  innerRow true s.escPending s (takeFailure false .truncatedEscape [] (setWalking false s))

end Sys2Proof.Machine
end

