-- ==== Sys2Proof/Machine/Exchange.lean ====
section
/-! DEFINITION. OPEN (43_exchange.md R75), EXCHANGE (R76) and the reserved code (R77). EXCHANGE's command runs its
steps 1 to 3 and enters step 4; the read that completes the frame runs steps 5 and 6 (`exchangeTail`), log 2. -/

namespace Sys2Proof.Machine

/-- OPEN once the transport has answered (R75). -/
def openAnswered : State × OpenResult → State
  | (s, .handle) => conclude (.ok []) (setOpened true s)
  | (s, .error _) => takeFailure false .openError [] s

/-- OPEN (R75). A second OPEN has no step (D16). -/
def execOpenStream (a : OpenArgs) (s : State) : Host.Outcome State Fault Refusal :=
  accept s fun s =>
    if s.opened then .refused .openWhileOpen
    else .next (openAnswered (streamOpen a s))

/-- The reserved code (R77). -/
def execReservedOp7 (s : State) : Host.Outcome State Fault Refusal :=
  accept s fun s => .next (takeFailure false .illegalOp [] s)

/-- Step 3 of EXCHANGE once the write was answered, and the entry of step 4 (R76). -/
def exchangeWritten (len : Nat) : State × WriteResult → State
  | (s, w) =>
    if w = .written len then receiveInit (setExchStep 4#3 s)
    else takeFailure false .writeError [] s

/-- Step 3 of EXCHANGE, the one write (R76). -/
def exchangeSend (f : List Byte) (s : State) : State :=
  exchangeWritten f.length (streamWrite f (setInter { s.inter with f := f } (setExchStep 3#3 s)))

/-- Step 2 of EXCHANGE, then step 3 (R76). -/
def exchangeEncode (x : List Byte) (s : State) : State :=
  let s := setInter { s.inter with x := x } (setExchStep 2#3 s)
  match encodeFrame x with
  | .fail f data => takeFailure false f data s
  | .ok f => exchangeSend f s

/-- Step 1 of EXCHANGE, then steps 2 and 3 (R76). -/
def exchangeHead (q : List Byte) (s : State) : State :=
  let s := computeCrc q (setExchStep 1#3 s)
  match appendCrc q with
  | .fail f data => takeFailure false f data s
  | .ok x => exchangeEncode x s

/-- Step 6 of EXCHANGE on the decoded body (R76). -/
def exchangeVerify (y : List Byte) (s : State) : State :=
  let s := computeCrc y (setInter { s.inter with y := y } (setExchStep 6#3 s))
  match verifyCrc y with
  | .fail f data => takeFailure false f data s
  | .ok p => conclude (.ok p) (setExchStep 0#3 s)

/-- Step 5 of EXCHANGE on the received body, then step 6 (R76). -/
def exchangeTail (b : List Byte) (s : State) : State :=
  let s := walkBody b (setInter { s.inter with b := b } (setExchStep 5#3 s))
  match decodeFrame b with
  | .fail f data => takeFailure false f data s
  | .ok y => exchangeVerify y s

/-- EXCHANGE (R76): `NotOpen` comes before step 1. -/
def execExchange (q : List Byte) (s : State) : Host.Outcome State Fault Refusal :=
  acceptBytes q s fun s =>
    if s.opened then .next (exchangeHead q s)
    else .next (takeFailure false .notOpen [] s)

end Sys2Proof.Machine
end

