-- ==== Sys2Proof/Machine/Receive.lean ====
section
/-! DEFINITION. The frame-boundary detector and the serial receive state machine (42_receive.md R68 to R70). -/

namespace Sys2Proof.Machine

/-! ### RX_BYTE (R68), class by class -/

/-- Class RX_START: clear the buffer, go to `CAPTURING`. -/
def rxStartByte (s : State) : State × RxYield :=
  (setRxState .capturing (bufClear s), .goOn)

/-- Class RX_NOISE: the byte is discarded, nothing changes. -/
def rxNoiseByte (s : State) : State × RxYield := (s, .goOn)

/-- Class RX_END: the body is complete. -/
def rxEndByte (s : State) : State × RxYield := (s, .done s.mem.capBuf)

/-- Class RX_BODY: the byte is appended, or does not fit. -/
def rxBodyByte (b : Byte) (s : State) : State × RxYield :=
  if captureFull s.cfg.maxBody s.mem then (s, .raised .frameTooLarge)
  else (bufAppend b s, .goOn)

/-- `RX_BYTE(b)` (R68): the end delimiter is tested before the full buffer. -/
def rxByte (b : Byte) (s : State) : State × RxYield :=
  match s.rxState with
  | .waitingForStart => if b = START then rxStartByte s else rxNoiseByte s
  | .capturing => if b = END then rxEndByte s else rxBodyByte b s

/-! ### RX_READ (R69) -/

/-- The bytes of one read in index order, up to the one that ends the receive (R69). -/
def rxBytes : List Byte → State → State × RxYield
  | [], s => (s, .goOn)
  | b :: bs, s =>
    match rxByte b s with
    | (s', .goOn) => rxBytes bs s'
    | (s', y) => (s', y)

/-- An empty read (R69). -/
def rxEmpty (s : State) : State × RxYield :=
  let n := s.emptyCnt + 1#2
  (setEmptyCnt n s, if emptyCntExpired n then .raised .receiveTimeout else .goOn)

/-- A read of at least one byte sets the counter back to 0 before its bytes are judged (R69, R92 (f)). -/
def rxNonEmpty (bs : List Byte) (s : State) : State × RxYield := rxBytes bs (setEmptyCnt 0#2 s)

/-- `RX_READ(r)` (R69). -/
def rxRead (r : ReadResult) (s : State) : State × RxYield :=
  match r with
  | .error _ =>
    match s.cfg.readErrorPolicy with
    | .fatal => (s, .raised .readError)
    | .tolerate => rxEmpty s
  | .bytes [] => rxEmpty s
  | .bytes (b :: bs) => rxNonEmpty (b :: bs) s

/-! ### The loop of RECEIVE_FRAME and of EXCHANGE step 4 (R70) -/

/-- What follows one byte or one read: the next iteration, or the exit with the clean-up of R70 and then the
result, or in EXCHANGE its steps 5 and 6. -/
def resume : State × RxYield → State
  | (s, .goOn) => s
  | (s, .raised f) => takeFailure true f [] s
  | (s, .done body) =>
    if s.exchStep = 4#3 then exchangeTail body (receiveInit s)
    else conclude (.ok body) (receiveInit s)

/-- A receive row: it exists only inside a receive (42_receive.md), in its own context (30_encoding.md R46) and for
its own operand. -/
def receiveRow (admitted here : Bool) (s : State) (r : State × RxYield) : Host.Outcome State Fault Refusal :=
  if !admitted then .refused .illFormed
  else if s.receiving && here then .next (resume r)
  else .refused .outOfContext

/-- RECEIVE_FRAME: the entry of R70; each further step consumes one read result (log 2). -/
def execReceiveFrame (s : State) : Host.Outcome State Fault Refusal :=
  accept s fun s =>
    if s.opened then .next (receiveInit (setExchStep 0#3 s))
    else .next (takeFailure false .notOpen [] s)

/-- RX_READ on one read result (R69). -/
def execRxRead (r : ReadResult) (s : State) : Host.Outcome State Fault Refusal :=
  receiveRow (r.within s.cfg.readCapacity) true s (rxRead r s)

/-- RX_START (R68). -/
def execRxStart (s : State) : Host.Outcome State Fault Refusal :=
  receiveRow true (s.rxState == .waitingForStart) s (rxStartByte s)

/-- RX_NOISE (R68). -/
def execRxNoise (b : Byte) (s : State) : Host.Outcome State Fault Refusal :=
  receiveRow (b != START) (s.rxState == .waitingForStart) s (rxNoiseByte s)

/-- RX_END (R68). -/
def execRxEnd (s : State) : Host.Outcome State Fault Refusal :=
  receiveRow true (s.rxState == .capturing) s (rxEndByte s)

/-- RX_BODY (R68). -/
def execRxBody (b : Byte) (s : State) : Host.Outcome State Fault Refusal :=
  receiveRow (b != END) (s.rxState == .capturing) s (rxBodyByte b s)

end Sys2Proof.Machine
end

