-- ==== Sys2Proof/Machine/Dispatch.lean ====
section
/-! DEFINITION. One arm per row of the opcode table. -/

namespace Sys2Proof.Machine

def exec (i : Instr) (s : State) : Host.Outcome State Fault Refusal :=
  match i with
  | .appendCrc p => Sys2Proof.Machine.execAppendCrc p s
  | .encodeFrame x => Sys2Proof.Machine.execEncodeFrame x s
  | .decodeFrame b => Sys2Proof.Machine.execDecodeFrame b s
  | .verifyCrc x => Sys2Proof.Machine.execVerifyCrc x s
  | .receiveFrame => Sys2Proof.Machine.execReceiveFrame s
  | .exchange q => Sys2Proof.Machine.execExchange q s
  | .openStream a => Sys2Proof.Machine.execOpenStream a s
  | .reservedOp7 => Sys2Proof.Machine.execReservedOp7 s
  | .escape x => Sys2Proof.Machine.execEscape x s
  | .wrap e => Sys2Proof.Machine.execWrap e s
  | .stripDelims f => Sys2Proof.Machine.execStripDelims f s
  | .rxRead r => Sys2Proof.Machine.execRxRead r s
  | .rxStart => Sys2Proof.Machine.execRxStart s
  | .rxNoise b => Sys2Proof.Machine.execRxNoise b s
  | .rxEnd => Sys2Proof.Machine.execRxEnd s
  | .rxBody b => Sys2Proof.Machine.execRxBody b s
  | .decEsc => Sys2Proof.Machine.execDecEsc s
  | .decLiteral c => Sys2Proof.Machine.execDecLiteral c s
  | .decEscaped c => Sys2Proof.Machine.execDecEscaped c s
  | .decTruncated => Sys2Proof.Machine.execDecTruncated s
  | .pairStart => Sys2Proof.Machine.execPairStart s
  | .pairEnd => Sys2Proof.Machine.execPairEnd s
  | .pairEsc => Sys2Proof.Machine.execPairEsc s
  | .literal b => Sys2Proof.Machine.execLiteral b s
  | .frameStart => Sys2Proof.Machine.execFrameStart s
  | .frameEnd => Sys2Proof.Machine.execFrameEnd s

end Sys2Proof.Machine
end

