-- ==== Sys2Proof/Machine/Fetch.lean ====
section
/-! DEFINITION. What the next step runs. There is no program counter (10_state.md R18): the caller selects each
operation through `CMD`, and while a receive runs the block consumes one read result a step (R9). -/

namespace Sys2Proof.Machine

/-- The context the decoder is given (30_encoding.md R46, R47). -/
def contextOf (s : State) : Context := { rxState := s.rxState, escPend := s.escPending }

/-- What a step finds to do, with the machine after it was taken from its source. -/
inductive Fetched where
  /-- the reset event -/
  | reset (s : State)
  /-- an encoding offered by the caller -/
  | offered (e : Encoded) (s : State)
  /-- the block's own next step in a receive: one read -/
  | ownRead (s : State)
  /-- nothing: the block is idle -/
  | nothing (s : State)
  deriving DecidableEq, Repr

/-- The block's own step: it has one only inside an operation (10_state.md R9). -/
def fetchOwn (s : State) : Fetched := if s.busy then .ownRead s else .nothing s

/-- The caller's next event, or the block's own step. A command issued with `call` waits until `BUSY` is 0
(log 5). -/
def fetch (s : State) : Fetched :=
  match s.caller with
  | [] => fetchOwn s
  | .reset :: rest => .reset (setCaller rest s)
  | .tick :: rest => fetchOwn (setCaller rest s)
  | .inner e :: rest => .offered e (setCaller rest s)
  | .force c :: rest => .offered (.cmd c) (setCaller rest s)
  | .call c :: rest => if s.busy then .ownRead s else .offered (.cmd c) (setCaller rest s)

/-- An idle machine in the middle of a walk of decoder rows, with `ESC_PEND` as given. -/
def placeWalk (pending : Bool) (s : State) : State := setWalking true (setEscPend pending (setBusy false s))

/-- The machine with a table word's candidate where the next step takes its instruction (log 13). A byte of the
receive side is judged inside a receive, so one is running then. -/
def placeCandidate (ctx : Context) (e : Encoded) (s : State) : State :=
  match e with
  | .cmd c => setCaller [.call c] (setBusy false s)
  | .rxByte b =>
    setCaller [.inner (.rxByte b)]
      (setRxState ctx.rxState (setOpened true (setExchStep 0#3 (setBusy true s))))
  | .decByte c => setCaller [.inner (.decByte c)] (placeWalk ctx.escPend s)
  | .stage st => setCaller [.inner (.stage st)] (setBusy false s)
  | .decEnd => setCaller [.inner .decEnd] (placeWalk ctx.escPend s)
  | .txSymbol wire => setCaller [.inner (.txSymbol wire)] (setBusy false s)
  | .txDelim b => setCaller [.inner (.txDelim b)] (setBusy false s)

end Sys2Proof.Machine
end

