-- ==== Sys2Proof/Machine/Step.lean ====
section
/-! DEFINITION. One step of the machine. -/

namespace Sys2Proof.Machine

/-- Decode what was offered and run it. -/
def runOffered (e : Encoded) (s : State) : Host.Outcome State Fault Refusal :=
  match decode (contextOf s) e with
  | .instr i => exec i s
  | .rejected err => .refused (.undecodable err)

/-- One read of the line, then RX_READ on its result (42_receive.md R70). -/
def runOwnRead (s : State) : Host.Outcome State Fault Refusal :=
  exec (.rxRead (streamRead s).2) (streamRead s).1

/-- One step. An idle block with nothing asked of it stays as it is (70_reset_and_hazards.md R102, log 5). -/
def step (s : State) : Host.Outcome State Fault Refusal :=
  match fetch s with
  | .reset s => .next (applyReset s)
  | .offered e s => runOffered e s
  | .ownRead s => runOwnRead s
  | .nothing s => .next s

/-- The state with a table word's instruction where the next step takes it (log 13). -/
def State.withFetchWord (s : State) (nbits w : Nat) : State :=
  match tableCandidate nbits w with
  | some (ctx, e) => placeCandidate ctx e s
  | none => setCaller [] s

end Sys2Proof.Machine
end

