-- ==== Sys2Proof/Machine/Script.lean ====
section
/-! DEFINITION. RECEIVE_FRAME and EXCHANGE as functions of their input and of a script of transport results, of
which they consume a prefix (43_exchange.md R79). `none` means that the script ended before the operation did: the
receive goes on (70_reset_and_hazards.md R110). The machine's steps are stated to agree with these. -/

namespace Sys2Proof.Machine

/-- The loop of R70 over a script: how the receive ends and what it leaves of the script. -/
def receiveLoop : List ReadResult → State → Option (Verdict × List ReadResult)
  | [], _ => none
  | r :: rs, s =>
    match rxRead r s with
    | (s', .goOn) => receiveLoop rs s'
    | (_, .done body) => some (.ok body, rs)
    | (_, .raised f) => some (.fail f [], rs)

/-- RECEIVE_FRAME over a script (42_receive.md R70). -/
def receiveOn (reads : List ReadResult) (s : State) : Option (Verdict × List ReadResult) :=
  if s.opened then receiveLoop reads (receiveInit s) else some (.fail .notOpen [], reads)

/-- Steps 5 and 6 of EXCHANGE on a body (43_exchange.md R76; `decode(B)` of 30_encoding.md R55 (e)). -/
def decodeReply (b : List Byte) : Verdict :=
  match decodeFrame b with
  | .fail f data => .fail f data
  | .ok y => verifyCrc y

/-- Steps 1 and 2 of EXCHANGE (43_exchange.md R76; `encode(P)` of 30_encoding.md R55 (d)). -/
def encodeRequest (q : List Byte) : Verdict :=
  match appendCrc q with
  | .fail f data => .fail f data
  | .ok x => encodeFrame x

/-- EXCHANGE over one write result and a script of reads (43_exchange.md R76). -/
def exchangeOn (q : List Byte) (w : WriteResult) (reads : List ReadResult) (s : State) :
    Option (Verdict × List ReadResult) :=
  if !s.opened then some (.fail .notOpen [], reads)
  else
    match encodeRequest q with
    | .fail f data => some (.fail f data, reads)
    | .ok frame =>
      if w ≠ .written frame.length then some (.fail .writeError [], reads)
      else
        match receiveLoop reads (receiveInit s) with
        | none => none
        | some (.fail f data, rest) => some (.fail f data, rest)
        | some (.ok b, rest) => some (decodeReply b, rest)

end Sys2Proof.Machine
end

