-- ==== Sys2Proof/Safety.lean ====
section
/-! DEFINITION. What holds at every step boundary of a run (10_state.md R11 to R15, R24), and what a safe run is. -/

namespace Sys2Proof.Safety

open Sys2Proof.Machine

/-- An outcome the block can deliver: codes 11 to 15 are never produced, and only `ok` and `ChecksumMismatch` carry
data (60_exceptions.md R80, 30_encoding.md R51). -/
abbrev responseLegal (r : Response) : Prop :=
  r.status.toNat ≤ 10 ∧ (r.status ≠ 0#4 → r.status ≠ 5#4 → r.dataOut = [])

/-- Between two operations the receive machine is at its reset values and no EXCHANGE step is running
(10_state.md R15, R24). -/
abbrev idleAtRest (s : State) : Prop :=
  s.busy = false →
    s.rxState = .waitingForStart ∧ s.emptyCnt = 0#2 ∧ s.mem.capBuf = [] ∧ s.exchStep = 0#3

/-- While a receive runs the stream is open, the running step is a receive, the counter has not expired, and
nothing is captured before the start delimiter (10_state.md R12, R14, R15, 42_receive.md R68 to R70). -/
abbrev busyReceiving (s : State) : Prop :=
  s.busy = true →
    s.opened = true ∧ (s.exchStep = 0#3 ∨ s.exchStep = 4#3) ∧ s.emptyCnt ≠ 3#2 ∧
      (s.rxState = .waitingForStart → s.mem.capBuf = [])

/-- The invariant of the machine at step boundaries. -/
abbrev StepInv (s : State) : Prop :=
  s.mem.wf s.cfg.maxBody ∧ idleAtRest s ∧ busyReceiving s ∧ ∀ r ∈ s.rsp, responseLegal r

/-- A run of `n` steps that ends in no fault and no refusal. -/
def runsTo (n : Nat) (s t : State) : Prop := Sys2Proof.core.run n s = .next t

/-- The bytes a read result delivers; an errored read delivers none. -/
def dataOf : ReadResult → List Byte
  | .bytes bs => bs
  | .error _ => []

/-- No three consecutive sequences are empty (42_receive.md R72). -/
def noThreeEmpty : List (List Byte) → Bool
  | a :: b :: c :: rest => !(a.isEmpty && b.isEmpty && c.isEmpty) && noThreeEmpty (b :: c :: rest)
  | _ => true

/-- The receive registers at the values of a receive's entry and exit (42_receive.md R70). -/
abbrev receiveAtRest (s : State) : Prop :=
  s.rxState = .waitingForStart ∧ s.emptyCnt = 0#2 ∧ s.mem = { capBuf := [], capLen := 0 }

/-- Everything an operation may depend on when it begins: the configuration, `OPENED`, what was delivered, and the
two agents (10_state.md R24). -/
abbrev sameOutside (s t : State) : Prop :=
  s.cfg = t.cfg ∧ s.opened = t.opened ∧ s.busy = t.busy ∧ s.rsp = t.rsp ∧ s.line = t.line ∧ s.caller = t.caller

/-- The registers a running receive depends on. -/
abbrev sameReceive (s t : State) : Prop :=
  s.rxState = t.rxState ∧ s.emptyCnt = t.emptyCnt ∧ s.mem = t.mem ∧ s.exchStep = t.exchStep

/-- Alike for everyone outside; and if a receive runs, it is the same receive. -/
abbrev sameRunning (s t : State) : Prop := sameOutside s t ∧ (s.busy = true → sameReceive s t)

/-- In the same walk of decoder rows driven one by one, or both in none (log 6). -/
abbrev sameWalk (s t : State) : Prop :=
  s.walking = t.walking ∧ (s.walking = true → s.escPend = t.escPend ∧ s.out = t.out)

/-- Alike in everything that what follows may depend on. `CRC_ACC` and the intermediates are left out, `ESC_PEND`
and `out` outside a walk, and the receive registers and `EXCH_STEP` while no operation runs
(70_reset_and_hazards.md R103, 10_state.md R24). -/
abbrev sameVisible (s t : State) : Prop := sameRunning s t ∧ sameWalk s t

/-- Two answers: next states that `rel` relates, or the same stop. -/
def answersAlike (rel : State → State → Prop) :
    Host.Outcome State Fault Refusal → Host.Outcome State Fault Refusal → Prop
  | .next s, .next t => rel s t
  | .fault f, .fault g => f = g
  | .refused a, .refused b => a = b
  | .next _, .fault _ | .next _, .refused _ | .fault _, .next _ => False
  | .fault _, .refused _ | .refused _, .next _ | .refused _, .fault _ => False

/-- The rows a caller can command on `CMD` (30_encoding.md R50). -/
def isCommand : Instr → Bool
  | .appendCrc _ | .encodeFrame _ | .decodeFrame _ | .verifyCrc _ => true
  | .receiveFrame | .exchange _ | .openStream _ | .reservedOp7 => true
  | .escape _ | .wrap _ | .stripDelims _ | .rxRead _ => false
  | .rxStart | .rxNoise _ | .rxEnd | .rxBody _ => false
  | .decEsc | .decLiteral _ | .decEscaped _ | .decTruncated => false
  | .pairStart | .pairEnd | .pairEsc | .literal _ | .frameStart | .frameEnd => false

/-- DECODE_FRAME read off its text: the byte after a marker XORed, the marker dropped, every other byte unchanged;
`none` for a marker with no byte after it (41_escape_wrap.md R65). -/
def unescape : List Byte → Option (List Byte)
  | [] => some []
  | [c] => if c = ESC then none else some [c]
  | c :: d :: rest =>
    if c = ESC then (unescape rest).map ((d ^^^ ESC) :: ·)
    else (unescape (d :: rest)).map (c :: ·)

/-- Rows run one after the other on the machine, outside any `step`. -/
def execAll : List Instr → State → Host.Outcome State Fault Refusal
  | [], s => .next s
  | i :: is, s =>
    match exec i s with
    | .next t => execAll is t
    | .fault f => .fault f
    | .refused r => .refused r

/-- Received bytes offered one after the other to the byte-class rows, until the receive is over
(42_receive.md R68, R69). -/
def execBytes : List Byte → State → Host.Outcome State Fault Refusal
  | [], s => .next s
  | b :: bs, s =>
    match exec (decodeRxByte s.rxState b) s with
    | .next t => if t.receiving then execBytes bs t else .next t
    | .fault f => .fault f
    | .refused r => .refused r

end Sys2Proof.Safety
end

