-- ==== Sys2Proof/Certificates/Slice0/Obligations.lean ====
section
/-! DEFINITION. The statements about the model, for the provers. -/

open Sys2Proof Sys2Proof.Machine Sys2Proof.Safety

/-! ### Encoding -/

/-- For every well-formed row in its context, decoding what the encoder writes gives the row back, with every
operand. -/
def Obligations.DecodeOfEncodeIsTheRow : Prop :=
  ∀ (cfg : Config) (ctx : Context) (i : Instr),
    i.wf cfg = true → i.inContext ctx = true → decode ctx (encode i) = .instr i

/-- Whatever the decoder accepts is a row in its own context, has the row's fixed bits, and is encoded again to the
same bits; so no encoding falls through to a neighbouring row. -/
def Obligations.DecodedRowHasTheWordsBits : Prop :=
  ∀ (ctx : Context) (e : Encoded) (i : Instr), decode ctx e = .instr i →
    i.inContext ctx = true ∧ (encode i).tableWord = e.tableWord ∧ i.row.matches e.tableWord.2 = true ∧
      decode ctx (encode i) = .instr i

/-- An escaped body splits, symbol by symbol, into exactly the symbols of the bytes it was made of
(30_encoding.md R43, R53). -/
def Obligations.EscapedBodyHasOneReading : Prop :=
  ∀ x : List Byte, decodeSymbols (escape x).length (escape x) = some (x.map symbolOf)

/-- The command codes, byte classes, symbols and delimiters, on words written out from R46, R47, R50, R43, R41. -/
def Obligations.WrittenWordsDecode : Prop :=
  (∀ ctx p, decode ctx (.cmd ⟨0b000#3, .bytes p⟩) = .instr (.appendCrc p)) ∧
  (∀ ctx q, decode ctx (.cmd ⟨0b101#3, .bytes q⟩) = .instr (.exchange q)) ∧
  (∀ ctx a, decode ctx (.cmd ⟨0b110#3, .openArgs a⟩) = .instr (.openStream a)) ∧
  (∀ ctx d, decode ctx (.cmd ⟨0b111#3, d⟩) = .instr .reservedOp7) ∧
  (∀ e, decode ⟨.waitingForStart, e⟩ (.rxByte 0b11000000#8) = .instr .rxStart) ∧
  (∀ e, decode ⟨.capturing, e⟩ (.rxByte 0b11000000#8) = .instr (.rxBody 0xC0#8)) ∧
  (∀ st, decode ⟨st, false⟩ (.decByte 0b01111101#8) = .instr .decEsc) ∧
  (∀ st, decode ⟨st, true⟩ (.decByte 0b01111101#8) = .instr (.decEscaped 0x7D#8)) ∧
  (∀ ctx, decode ctx (.txSymbol [0b01111101#8, 0b10111101#8]) = .instr .pairStart) ∧
  (∀ ctx, decode ctx (.txDelim 0b11000001#8) = .instr .frameEnd)

/-! ### One step -/

/-- A step runs the instruction that what the caller offers decodes to, with the event taken off the caller's list;
an encoding that is no instruction, offered in any of these ways, is refused (that a command whose operand has the
wrong shape is none is the model's choice, log 11, and so are the caller's list, log 5, rows driven alone, log 6, and
the grain of a step, log 2); while a receive runs and the caller lets the block go on, the step is
one `StreamRead` and RX_READ on its result; an idle block with nothing asked stays as it is. -/
def Obligations.StepRunsTheDecodedInstruction : Prop :=
  (∀ (s : State) (e : Encoded) (rest : List CallerEvent) (i : Instr),
    s.caller = .inner e :: rest → decode (contextOf s) e = .instr i →
      step s = exec i { s with caller := rest }) ∧
  (∀ (s : State) (c : Command) (rest : List CallerEvent) (i : Instr),
    (s.caller = .call c :: rest ∧ s.busy = false) ∨ s.caller = .force c :: rest →
      decode (contextOf s) (.cmd c) = .instr i → step s = exec i { s with caller := rest }) ∧
  (∀ (s : State) (e : Encoded) (rest : List CallerEvent) (err : DecodeError),
    (s.caller = .inner e :: rest ∨ ∃ c, e = .cmd c ∧
      ((s.caller = .call c :: rest ∧ s.busy = false) ∨ s.caller = .force c :: rest)) →
    decode (contextOf s) e = .rejected err →
      step s = .refused (.undecodable err)) ∧
  (∀ s : State, s.busy = true → (s.caller = [] ∨ ∃ c rest, s.caller = .call c :: rest) →
      step s = exec (.rxRead (streamRead s).2) (streamRead s).1) ∧
  (∀ (s : State) (rest : List CallerEvent), s.busy = true → s.caller = .tick :: rest →
      step s = exec (.rxRead (streamRead { s with caller := rest }).2) (streamRead { s with caller := rest }).1) ∧
  (∀ s : State, s.busy = false → s.caller = [] → step s = .next s)

/-- The reset event: every register at its reset value, a running operation abandoned without an outcome, the
transport untouched. That the transport's settings survive, which `t.line = s.line` says beside its queue, is the
model's choice (log 18): R102 leaves the handle to the transport. That the configuration, the outcomes delivered and
the caller's further events stay is log 18's reading too. The values of `CRC_ACC`, `ESC_PEND`, the intermediates,
`out` and `walking` are the model's choice (log 8, log 6) and are left out. -/
def Obligations.ResetEventRestoresResetValues : Prop :=
  ∀ (s : State) (rest : List CallerEvent), s.caller = .reset :: rest →
    ∃ t, step s = .next t ∧ receiveAtRest t ∧ t.opened = false ∧ t.busy = false ∧ t.exchStep = 0#3 ∧
      t.rsp = s.rsp ∧ t.line = s.line ∧ t.cfg = s.cfg ∧ t.caller = rest

/-- The registers after reset have the values of R24. -/
def Obligations.ResetStateHasTheSpecsValues : Prop :=
  receiveAtRest State.reset ∧ State.reset.opened = false ∧ State.reset.busy = false ∧ State.reset.exchStep = 0#3 ∧
    State.reset.cfg = ⟨.unbounded, .unbounded, 1, .fatal⟩

/-! ### Invariants and whole-machine rules -/

/-- The invariant holds after reset. -/
def Obligations.ResetSatisfiesTheInvariant : Prop := StepInv State.reset

/-- Every step keeps the invariant. -/
def Obligations.StepKeepsTheInvariant : Prop := ∀ s t : State, StepInv s → step s = .next t → StepInv t

/-- No step writes the configuration. -/
def Obligations.NoStepWritesTheConfiguration : Prop := ∀ s t : State, step s = .next t → t.cfg = s.cfg

/-- `OPENED` is cleared by the reset event only and set by a successful OPEN only. -/
def Obligations.OnlyResetClearsOpened : Prop :=
  ∀ s t : State, step s = .next t →
    (s.opened = true → t.opened = false → ∃ rest, s.caller = .reset :: rest) ∧
    (s.opened = false → t.opened = true → ∃ a, t.line.log = .opened a .handle :: s.line.log)

/-- A step makes at most one call on the transport: an open only with `OPENED` = 0 and no operation running, a write
only as an EXCHANGE begins, a read of `READ_CAPACITY` bytes only inside a receive that began before. So the one
write of an EXCHANGE comes before its first read and is not repeated. -/
def Obligations.OneTransportCallAStepWriteBeforeReads : Prop :=
  ∀ s t : State, step s = .next t →
    t.line.log = s.line.log ∨ ∃ c, t.line.log = c :: s.line.log ∧
      (∀ a r, c = .opened a r → s.busy = false ∧ s.opened = false) ∧
      (∀ bs w, c = .wrote bs w → s.busy = false ∧ s.opened = true ∧
        (t.busy = true ↔ w = .written bs.length)) ∧
      (∀ cap r, c = .read cap r → s.busy = true ∧ cap = s.cfg.readCapacity ∧
        r.within cap = true)

/-- A step delivers at most one outcome, and the block is idle after it; a running operation ends with an outcome,
or with the reset event and none. -/
def Obligations.OutcomeEndsTheOperation : Prop :=
  ∀ s t : State, step s = .next t →
    (t.rsp = s.rsp ∨ ∃ r, t.rsp = r :: s.rsp ∧ t.busy = false) ∧
    (s.busy = true → t.busy = false →
      (∃ r, t.rsp = r :: s.rsp) ∨ (t.rsp = s.rsp ∧ ∃ rest, s.caller = .reset :: rest))

/-- While a receive runs, nothing but its terminal events takes `CAPTURING` back to `WAITING_FOR_START`, and the
capture buffer only grows at its end. -/
def Obligations.CapturingGoesOnUntilATerminalEvent : Prop :=
  ∀ s t : State, s.busy = true → s.rxState = .capturing → step s = .next t → t.busy = true →
    t.rxState = .capturing ∧ t.opened = s.opened ∧ t.exchStep = s.exchStep ∧
      ∃ more, t.mem.capBuf = s.mem.capBuf ++ more ∧ t.mem.capLen = s.mem.capLen + more.length

/-- Failure entry: whichever row raised it, the block is idle, `EXCH_STEP` is 0, `OPENED` is unchanged, a receive
that was running is cleaned up, and only `ChecksumMismatch` carries data. -/
def Obligations.FailureEntryLeavesTheBlockIdle : Prop :=
  ∀ (i : Instr) (s t : State) (r : Response), exec i s = .next t → t.rsp = r :: s.rsp → r.status ≠ 0#4 →
    t.busy = false ∧ t.exchStep = 0#3 ∧ t.opened = s.opened ∧ (s.busy = true → receiveAtRest t) ∧
      (r.status ≠ 5#4 → r.dataOut = []) ∧ 1 ≤ r.status.toNat ∧ r.status.toNat ≤ 10

/-- One command's own step: two idle machines that agree on the configuration, `OPENED`, what was delivered and the
two agents answer every command alike, whatever earlier operations left in their registers; if a receive has begun, it has begun alike. -/
def Obligations.CommandsSeeNothingEarlierOnesLeft : Prop :=
  ∀ (i : Instr) (s t : State), isCommand i = true → s.busy = false → sameOutside s t →
    answersAlike sameRunning (exec i s) (exec i t)

/-- Two machines that agree on what may be read (`sameVisible`) take every step alike and agree on it again, through
every read of a receive and steps 5 and 6 of EXCHANGE: no step reads a transient element, or a receive register of an
earlier operation, before it is written. Decoder rows driven alone are the model's (log 6), and so is the grain of a
step (log 2). -/
def Obligations.EveryStepKeepsMachinesAlike : Prop :=
  ∀ s t : State, sameVisible s t → answersAlike sameVisible (step s) (step t)

/-- Only OPEN and EXCHANGE call the transport when they run. The `StreamRead` of each iteration of a receive is made
by the step, and RX_READ judges its result: that RECEIVE_FRAME's own row is the entry only is the grain of log 2
(DEDUCED). -/
def Obligations.OtherRowsLeaveTheTransportAlone : Prop :=
  ∀ (i : Instr) (s t : State), exec i s = .next t →
    (∀ a, i ≠ .openStream a) → (∀ q, i ≠ .exchange q) → t.line = s.line

/-- The rows that store nothing leave every byte of the capture buffer, and RX_BODY leaves every byte but the one at
the old `CAPLEN`. -/
def Obligations.MemoryFrame : Prop :=
  (∀ (i : Instr) (s t : State), exec i s = .next t → s.busy = false →
    i ≠ .receiveFrame → (∀ q, i ≠ .exchange q) → ∀ a, memRead t a = memRead s a) ∧
  (∀ (b : Byte) (s t : State), exec (.rxNoise b) s = .next t → ∀ a, memRead t a = memRead s a) ∧
  (∀ (b : Byte) (s t : State), exec (.rxBody b) s = .next t → t.busy = true → s.mem.capLen = s.mem.capBuf.length →
    memRead t s.mem.capLen = some b ∧ ∀ a, a ≠ s.mem.capLen → memRead t a = memRead s a)

/-- What the four codec commands and the reserved code leave unchanged when they answer a next state. `out` and
`walking` are the model's own fields (log 6), and what `CRC_ACC` and `ESC_PEND` hold between operations is its choice
(log 8). -/
def Obligations.CodecFrame : Prop :=
  ∀ (i : Instr) (s t : State), exec i s = .next t →
    ((∃ p, i = .appendCrc p) ∨ (∃ x, i = .encodeFrame x) ∨ (∃ b, i = .decodeFrame b) ∨ (∃ x, i = .verifyCrc x) ∨
      i = .reservedOp7) →
    t.cfg = s.cfg ∧ t.rxState = s.rxState ∧ t.emptyCnt = s.emptyCnt ∧ t.mem = s.mem ∧ t.opened = s.opened ∧
      t.busy = s.busy ∧ t.inter = s.inter ∧ t.out = s.out ∧ t.line = s.line ∧ t.caller = s.caller ∧
      (s.exchStep = 0#3 → t.exchStep = 0#3) ∧
      ((∀ p, i ≠ .appendCrc p) → (∀ x, i ≠ .verifyCrc x) → t.crcAcc = s.crcAcc) ∧
      ((∀ b, i ≠ .decodeFrame b) → t.escPend = s.escPend ∧ t.walking = s.walking) ∧
      ∃ r, t.rsp = r :: s.rsp

/-! ### The checksum -/

/-- R57: a payload followed by its checksum, low byte first, has checksum 0; the converse for two or more bytes,
which R57 marks as general knowledge (93 G2) and not its source's; inverting one bit of a sequence with checksum 0
gives another checksum. That it is a pure function into 16 bits is its type. The values rest on the function of R56
(log 1). -/
def Obligations.ChecksumProperties : Prop :=
  (∀ p : List Byte, crc16 (p ++ [lo (crc16 p), hi (crc16 p)]) = 0#16) ∧
  (∀ (p : List Byte) (a b : Byte), crc16 (p ++ [a, b]) = 0#16 → a = lo (crc16 p) ∧ b = hi (crc16 p)) ∧
  (∀ (l r : List Byte) (b : Byte) (k : Fin 8),
    crc16 (l ++ [b] ++ r) = 0#16 → crc16 (l ++ [b ^^^ (1#8 <<< k.val)] ++ r) ≠ 0#16)

/-- Flipping one bit of a valid checksummed payload makes VERIFY_CRC fail with `ChecksumMismatch` (with the function
of log 1). -/
def Obligations.OneFlippedBitIsDetected : Prop :=
  ∀ (s : State) (l r : List Byte) (b : Byte) (k : Fin 8),
    s.busy = false → s.cfg.maxPayload.admits (l ++ [b] ++ r).length = true → crc16 (l ++ [b] ++ r) = 0#16 →
    ∃ t d, exec (.verifyCrc (l ++ [b ^^^ (1#8 <<< k.val)] ++ r)) s = .next t ∧ t.rsp = ⟨5#4, d⟩ :: s.rsp

/-- The table-driven form computes the same checksum (the function is log 1's). -/
def Obligations.TableFormComputesTheChecksum : Prop := ∀ s : List Byte, crc16ByTable s = crc16 s

/-- Inputs shorter than three bytes: one byte never verifies, and of two bytes only FF FF does, with the empty
payload. The values rest on the function of log 1, and the data under `ChecksumMismatch` is no valid data (log 15). -/
def Obligations.ShortInputsToVerify : Prop :=
  ∀ s : State, s.busy = false → s.cfg.maxPayload.admits 2 = true →
    (∀ a : Byte, ∃ t, exec (.verifyCrc [a]) s = .next t ∧ t.rsp = ⟨5#4, []⟩ :: s.rsp) ∧
    (∀ a b : Byte, ∃ t, exec (.verifyCrc [a, b]) s = .next t ∧
      t.rsp = (if a = 0xFF#8 ∧ b = 0xFF#8 then ⟨0#4, []⟩ else ⟨5#4, []⟩) :: s.rsp)

/-- APPEND_CRC of a non-empty payload. That `CRC_ACC` still holds the checksum afterwards is the model's choice
(log 8): by R58 it holds nothing then. -/
def Obligations.AppendCrcResult : Prop :=
  ∀ (p : List Byte) (s : State), s.busy = false → s.cfg.maxPayload.admits p.length = true → p ≠ [] →
    exec (.appendCrc p) s = .next { s with
      crcAcc := crc16 p
      rsp := ⟨0#4, p ++ [(crc16 p).setWidth 8, (crc16 p >>> 8).setWidth 8]⟩ :: s.rsp }

/-- VERIFY_CRC of a non-empty input: the self-check over all of it; the result, or the diagnostic payload, is the
input without its last two bytes. The diagnostic payload must not be relied on as data (log 15). That `CRC_ACC`
still holds the checksum afterwards is the model's choice (log 8). -/
def Obligations.VerifyCrcResult : Prop :=
  ∀ (x : List Byte) (s : State), s.busy = false → s.cfg.maxPayload.admits x.length = true → x ≠ [] →
    (crc16 x = 0#16 →
      exec (.verifyCrc x) s = .next { s with crcAcc := 0#16, rsp := ⟨0#4, x.take (x.length - 2)⟩ :: s.rsp }) ∧
    (crc16 x ≠ 0#16 →
      exec (.verifyCrc x) s = .next { s with
        crcAcc := crc16 x, exchStep := 0#3, rsp := ⟨5#4, x.take (x.length - 2)⟩ :: s.rsp })

/-! ### Escaping and framing -/

/-- ENCODE_FRAME of a non-empty input. -/
def Obligations.EncodeFrameResult : Prop :=
  ∀ (x : List Byte) (s : State), s.busy = false → s.cfg.maxPayload.admits x.length = true → x ≠ [] →
    exec (.encodeFrame x) s = .next { s with
      rsp := ⟨0#4, 0xC0#8 :: (x.flatMap fun b =>
        if b = 0xC0#8 ∨ b = 0xC1#8 ∨ b = 0x7D#8 then [0x7D#8, b ^^^ 0x7D#8] else [b]) ++ [0xC1#8]⟩ :: s.rsp }

/-- DECODE_FRAME of a non-empty body is the text of its rule, `TruncatedEscape` for a lone marker at the end.
What `ESC_PEND` holds afterwards is the model's choice (log 8), and `walking` is the model's own field (log 6). -/
def Obligations.DecodeFrameResult : Prop :=
  ∀ (b : List Byte) (s : State), s.busy = false → s.cfg.maxPayload.admits b.length = true → b ≠ [] →
    (∀ y, unescape b = some y →
      exec (.decodeFrame b) s = .next { s with escPend := false, walking := false, rsp := ⟨0#4, y⟩ :: s.rsp }) ∧
    (unescape b = none →
      exec (.decodeFrame b) s = .next { s with
        escPend := true, walking := false, exchStep := 0#3, rsp := ⟨6#4, []⟩ :: s.rsp })

/-- The empty input of the four codec commands and of EXCHANGE, and the empty reply body of EXCHANGE, answer
`EmptyInput` before anything is computed or sent. -/
def Obligations.EmptyInputIsReported : Prop :=
  (∀ s : State, s.busy = false → s.cfg.maxPayload.admits 0 = true → ∀ i : Instr,
    (i = .appendCrc [] ∨ i = .encodeFrame [] ∨ i = .decodeFrame [] ∨ i = .verifyCrc [] ∨
      (i = .exchange [] ∧ s.opened = true)) →
    exec i s = .next { s with exchStep := 0#3, rsp := ⟨1#4, []⟩ :: s.rsp }) ∧
  (∀ s : State, s.busy = true → s.exchStep = 4#3 → s.rxState = .capturing → s.mem.capBuf = [] →
    ∃ t, exec .rxEnd s = .next t ∧ t.rsp = ⟨1#4, []⟩ :: s.rsp ∧ t.line = s.line ∧ t.busy = false)

/-- The frame invariant. -/
def Obligations.FrameInvariant : Prop :=
  ∀ x f : List Byte, encodeFrame x = .ok f →
    f[0]? = some 0xC0#8 ∧ f[f.length - 1]? = some 0xC1#8 ∧
    (∀ i, 0 < i → i < f.length - 1 → f[i]? ≠ some 0xC0#8 ∧ f[i]? ≠ some 0xC1#8) ∧
    (∀ i, 0 < i → i < f.length - 1 → f[i]? = some 0x7D#8 →
      i + 1 < f.length - 1 ∧ (f[i + 1]? = some 0xBD#8 ∨ f[i + 1]? = some 0xBC#8 ∨ f[i + 1]? = some 0x00#8))

/-- The lengths of the formats, and their bounds. -/
def Obligations.FormatLengths : Prop :=
  ∀ p x f : List Byte, appendCrc p = .ok x → encodeFrame x = .ok f →
    x.length = p.length + 2 ∧
    (escape x).length = p.length + 2 + x.countP reserved ∧
    f.length = p.length + 4 + x.countP reserved ∧
    5 ≤ f.length ∧ f.length ≤ 2 * p.length + 6 ∧ (escape x).length ≤ 2 * p.length + 4

/-- The round trip of every non-empty payload, every operation on the way succeeding, and its two halves. -/
def Obligations.RoundTrip : Prop :=
  (∀ p : List Byte, p ≠ [] → ∃ x f, appendCrc p = .ok x ∧ encodeFrame x = .ok f ∧
    decodeFrame (stripDelims f) = .ok x ∧ verifyCrc x = .ok p) ∧
  (∀ x : List Byte, x ≠ [] → decodeFrame (escape x) = .ok x) ∧
  (∀ p x : List Byte, appendCrc p = .ok x → verifyCrc x = .ok p)

/-- No frame byte but the first and last is a delimiter and no marker stands alone; without reserved bytes there is
no overhead; a body without a marker decodes to itself. -/
def Obligations.EscapingIsCompleteAndFree : Prop :=
  (∀ x f : List Byte, encodeFrame x = .ok f → ∀ i, i < f.length →
    ((f[i]? = some 0xC0#8 → i = 0) ∧ (f[i]? = some 0xC1#8 → i + 1 = f.length) ∧
     (f[i]? = some 0x7D#8 → ∃ c, f[i + 1]? = some c ∧ reserved (c ^^^ 0x7D#8) = true))) ∧
  (∀ x : List Byte, x ≠ [] → (∀ b ∈ x, reserved b = false) → encodeFrame x = .ok ([0xC0#8] ++ x ++ [0xC1#8])) ∧
  (∀ b : List Byte, b ≠ [] → 0x7D#8 ∉ b → decodeFrame b = .ok b)

/-- WRAP: exactly one delimiter on each side, two bytes longer, no other effect. That it runs alone and leaves its
yield in `out` is the model's choice (log 6). -/
def Obligations.WrapResult : Prop :=
  ∀ (e : List Byte) (s : State), s.busy = false →
    exec (.wrap e) s = .next { s with out := [0xC0#8] ++ e ++ [0xC1#8] } ∧
      ([0xC0#8] ++ e ++ [0xC1#8] : List Byte).length = e.length + 2

/-- ESCAPE on its own is memoryless, and STRIP_DELIMS is the slice without the first and last byte; neither has any
other effect. That they run alone and leave their yield in `out` is the model's choice (log 6). -/
def Obligations.EscapeAndStripResults : Prop :=
  ∀ s : State, s.busy = false →
    (exec (.escape []) s = .next { s with out := [] }) ∧
    (∀ b x, exec (.escape (b :: x)) s = .next { s with
      out := (if b = 0xC0#8 ∨ b = 0xC1#8 ∨ b = 0x7D#8 then [0x7D#8, b ^^^ 0x7D#8] else [b]) ++ escape x }) ∧
    (∀ (first last : Byte) (mid : List Byte),
      exec (.stripDelims ([first] ++ mid ++ [last])) s = .next { s with out := mid }) ∧
    (∀ f : List Byte, f.length < 2 → exec (.stripDelims f) s = .refused .illFormed)

/-- The transmit symbols and delimiters on their own: the bytes of the table, added to what was emitted, and no
other effect. That they run alone, into `out`, is the model's choice (log 6). -/
def Obligations.SymbolResults : Prop :=
  ∀ s : State, s.busy = false →
    exec .pairStart s = .next { s with out := s.out ++ [0x7D#8, 0xBD#8] } ∧
    exec .pairEnd s = .next { s with out := s.out ++ [0x7D#8, 0xBC#8] } ∧
    exec .pairEsc s = .next { s with out := s.out ++ [0x7D#8, 0x00#8] } ∧
    (∀ b : Byte, b ≠ 0xC0#8 → b ≠ 0xC1#8 → b ≠ 0x7D#8 →
      exec (.literal b) s = .next { s with out := s.out ++ [b] }) ∧
    exec .frameStart s = .next { s with out := s.out ++ [0xC0#8] } ∧
    exec .frameEnd s = .next { s with out := s.out ++ [0xC1#8] }

/-- The symbol rows of a payload's bytes, run between the two delimiter rows, emit the frame that ENCODE_FRAME
answers. That the rows run alone, into `out`, is the model's choice (log 6). -/
def Obligations.SymbolRowsMakeTheFrame : Prop :=
  ∀ (x f : List Byte) (s : State), s.busy = false → s.out = [] → encodeFrame x = .ok f →
    execAll ([.frameStart] ++ x.map symbolOf ++ [.frameEnd]) s = .next { s with out := f }

/-- The decoder's byte classes driven one by one, which is the model's choice (log 6): inside a walk on the walk's
`ESC_PEND` and `out`, and outside one from `ESC_PEND` = 0 and an empty `out`, whatever the two hold. -/
def Obligations.DecoderClassResults : Prop :=
  ∀ s : State, s.busy = false →
    (s.escPending = false →
      exec .decEsc s = .next { s with
        escPend := true, walking := true, out := if s.walking then s.out else [] } ∧
      ∀ c : Byte, c ≠ 0x7D#8 → exec (.decLiteral c) s = .next { s with
        escPend := false, walking := true, out := (if s.walking then s.out else []) ++ [c] }) ∧
    (s.escPending = true →
      (∀ c : Byte, exec (.decEscaped c) s = .next { s with escPend := false, out := s.out ++ [c ^^^ 0x7D#8] }) ∧
      exec .decTruncated s = .next { s with walking := false, exchStep := 0#3, rsp := ⟨6#4, []⟩ :: s.rsp })

/-- A body offered byte by byte to the decoder's classes, from any idle state outside a walk, is decoded as
DECODE_FRAME decodes it; when the body ends in a lone marker, the end of the input raises `TruncatedEscape`. Driving
the classes one by one, into `out`, is the model's choice (log 6). -/
def Obligations.DecoderClassesWalkTheBody : Prop :=
  ∀ (b : List Byte) (s : State) (rest : List CallerEvent), s.busy = false → s.walking = false → b ≠ [] →
    s.caller = b.map (fun c => CallerEvent.inner (.decByte c)) ++ .inner .decEnd :: rest →
    (∀ y, decodeFrame b = .ok y →
      runsTo b.length s { s with escPend := false, walking := true, out := y, caller := .inner .decEnd :: rest }) ∧
    (decodeFrame b = .fail .truncatedEscape [] →
      ∃ t, runsTo (b.length + 1) s t ∧ t.rsp = ⟨6#4, []⟩ :: s.rsp ∧ t.walking = false ∧ t.caller = rest)

/-! ### Receiving -/

/-- RECEIVE_FRAME's entry: with the stream open the receive begins from its initial values; without it `NotOpen`, no
read. -/
def Obligations.ReceiveFrameEntry : Prop :=
  ∀ s : State, s.busy = false →
    (s.opened = true → exec .receiveFrame s = .next { s with
      busy := true, exchStep := 0#3, rxState := .waitingForStart, emptyCnt := 0#2,
      mem := { capBuf := [], capLen := 0 } }) ∧
    (s.opened = false → exec .receiveFrame s = .next { s with exchStep := 0#3, rsp := ⟨9#4, []⟩ :: s.rsp })

/-- RX_START and RX_NOISE. -/
def Obligations.WaitingClassResults : Prop :=
  ∀ s : State, s.receiving = true → s.rxState = .waitingForStart →
    exec .rxStart s = .next { s with rxState := .capturing, mem := { capBuf := [], capLen := 0 } } ∧
    ∀ b : Byte, b ≠ 0xC0#8 → exec (.rxNoise b) s = .next s

/-- RX_BODY: the byte, whatever it is but 0xC1, is appended at the end of the buffer; with the buffer full,
`FrameTooLarge` and the exit's clean-up. 0xC0 is appended like any other: no restart. -/
def Obligations.BodyByteIsAppended : Prop :=
  ∀ (s : State) (b : Byte), s.receiving = true → s.rxState = .capturing → b ≠ 0xC1#8 →
    (s.cfg.maxBody ≠ .atMost s.mem.capLen →
      exec (.rxBody b) s = .next { s with
        mem := { capBuf := s.mem.capBuf ++ [b], capLen := s.mem.capLen + 1 } }) ∧
    (s.cfg.maxBody = .atMost s.mem.capLen →
      exec (.rxBody b) s = .next { s with
        rxState := .waitingForStart, emptyCnt := 0#2, mem := { capBuf := [], capLen := 0 },
        busy := false, exchStep := 0#3, rsp := ⟨7#4, []⟩ :: s.rsp })

/-- RX_END in RECEIVE_FRAME: the body captured, whole, however full the buffer is, and the exit's clean-up. -/
def Obligations.EndDelimiterDeliversTheBody : Prop :=
  ∀ s : State, s.busy = true → s.exchStep = 0#3 → s.rxState = .capturing →
    exec .rxEnd s = .next { s with
      rxState := .waitingForStart, emptyCnt := 0#2, mem := { capBuf := [], capLen := 0 },
      busy := false, rsp := ⟨0#4, s.mem.capBuf⟩ :: s.rsp }

/-- RX_END in EXCHANGE: steps 5 and 6 on the body, their first failure or their result delivered, and everything
back at rest. That the intermediates still hold `X`, `F` and the body afterwards is the model's choice (log 8).
`out` and `walking` are the model's own fields, and that EXCHANGE's decoder ends a walk of rows driven alone is its
choice (log 6). -/
def Obligations.EndDelimiterFinishesTheExchange : Prop :=
  ∀ s : State, s.busy = true → s.exchStep = 4#3 → s.rxState = .capturing →
    ∃ t, exec .rxEnd s = .next t ∧ t.rsp = (decodeReply s.mem.capBuf).response :: s.rsp ∧ receiveAtRest t ∧
      t.busy = false ∧ t.exchStep = 0#3 ∧ t.opened = s.opened ∧ t.cfg = s.cfg ∧ t.out = s.out ∧ t.line = s.line ∧
      t.caller = s.caller ∧ t.inter.x = s.inter.x ∧ t.inter.f = s.inter.f ∧ t.inter.b = s.mem.capBuf ∧
      t.walking = (s.walking && s.mem.capBuf.isEmpty)

/-- RX_READ on an empty read, on an errored read under either policy, and on a non-empty read of bytes that end
nothing. -/
def Obligations.ReadResults : Prop :=
  ∀ s : State, s.receiving = true →
    (s.emptyCnt ≠ 2#2 → exec (.rxRead (.bytes [])) s = .next { s with emptyCnt := s.emptyCnt + 1#2 }) ∧
    (s.emptyCnt = 2#2 → exec (.rxRead (.bytes [])) s = .next { s with
      rxState := .waitingForStart, emptyCnt := 0#2, mem := { capBuf := [], capLen := 0 },
      busy := false, exchStep := 0#3, rsp := ⟨4#4, []⟩ :: s.rsp }) ∧
    (∀ e, s.cfg.readErrorPolicy = .fatal → exec (.rxRead (.error e)) s = .next { s with
      rxState := .waitingForStart, emptyCnt := 0#2, mem := { capBuf := [], capLen := 0 },
      busy := false, exchStep := 0#3, rsp := ⟨8#4, []⟩ :: s.rsp }) ∧
    (∀ e, s.cfg.readErrorPolicy = .tolerate → exec (.rxRead (.error e)) s = exec (.rxRead (.bytes [])) s) ∧
    (∀ bs : List Byte, bs ≠ [] → bs.length ≤ s.cfg.readCapacity → s.rxState = .waitingForStart → 0xC0#8 ∉ bs →
      exec (.rxRead (.bytes bs)) s = .next { s with emptyCnt := 0#2 }) ∧
    (∀ bs : List Byte, bs ≠ [] → bs.length ≤ s.cfg.readCapacity → s.rxState = .capturing → 0xC1#8 ∉ bs →
      s.cfg.maxBody.admits (s.mem.capLen + bs.length) = true →
      exec (.rxRead (.bytes bs)) s = .next { s with
        emptyCnt := 0#2
        mem := { capBuf := s.mem.capBuf ++ bs, capLen := s.mem.capLen + bs.length } })

/-- A non-empty read, whatever its bytes, is its bytes judged by the byte-class rows one after the other from a
counter at 0, up to the one that ends the receive. -/
def Obligations.ReadIsItsBytesRowByRow : Prop :=
  ∀ (bs : List Byte) (s : State), s.receiving = true → bs ≠ [] → bs.length ≤ s.cfg.readCapacity →
    (∃ t, exec (.rxRead (.bytes bs)) s = .next t) ∧
      exec (.rxRead (.bytes bs)) s = execBytes bs { s with emptyCnt := 0#2 }

/-- A read's bytes may be cut anywhere: judging two pieces one after the other is judging them together, and after
the first terminal byte nothing more is looked at. -/
def Obligations.FirstTerminalByteDecides : Prop :=
  ∀ (xs ys : List Byte) (s : State),
    ((rxBytes xs s).2 = .goOn → rxBytes (xs ++ ys) s = rxBytes ys (rxBytes xs s).1) ∧
    ((rxBytes xs s).2 ≠ .goOn → rxBytes (xs ++ ys) s = rxBytes xs s)

/-- A transport that always answers with no bytes: RECEIVE_FRAME fails with `ReceiveTimeout` after exactly three
reads. -/
def Obligations.SilentLineTimesOutAfterThreeReads : Prop :=
  ∀ (s : State) (d : DataIn) (rest : List ReadResult),
    s.busy = false → s.opened = true → s.caller = [.call ⟨4#3, d⟩] →
    s.line.reads = [.bytes [], .bytes [], .bytes []] ++ rest →
    (∃ t, runsTo 3 s t ∧ t.busy = true ∧ t.rsp = s.rsp) ∧
    ∃ t, runsTo 4 s t ∧ t.busy = false ∧ t.rsp = ⟨4#4, []⟩ :: s.rsp ∧ t.line.reads = rest ∧ receiveAtRest t ∧
      t.line.log = [.read s.cfg.readCapacity (.bytes []), .read s.cfg.readCapacity (.bytes []),
        .read s.cfg.readCapacity (.bytes [])] ++ s.line.log

/-- Resynchronisation: whatever noise without 0xC0 comes first and however the bytes are cut into reads,
RECEIVE_FRAME returns exactly the body; the bytes after the end delimiter in the last read are lost, later reads
stay in the queue. For a noise-free stream that is STRIP_DELIMS of the frame. -/
def Obligations.ReceiveResynchronises : Prop :=
  (∀ (s : State) (d : DataIn) (init rest : List ReadResult) (last : ReadResult) (g b t : List Byte),
    s.busy = false → s.opened = true → s.caller = [.call ⟨4#3, d⟩] →
    s.line.reads = init ++ [last] ++ rest →
    (∀ r ∈ init ++ [last], r.within s.cfg.readCapacity = true) →
    (s.cfg.readErrorPolicy = .fatal → ∀ r ∈ init, ∃ bs, r = .bytes bs) →
    ((init ++ [last]).map dataOf).flatten = g ++ [0xC0#8] ++ b ++ [0xC1#8] ++ t →
    t.length < (dataOf last).length →
    0xC0#8 ∉ g → 0xC1#8 ∉ b → s.cfg.maxBody.admits b.length = true →
    noThreeEmpty (init.map dataOf) = true →
    ∃ u, runsTo (init.length + 2) s u ∧ u.busy = false ∧ u.rsp = ⟨0#4, b⟩ :: s.rsp ∧ u.line.reads = rest ∧
      receiveAtRest u) ∧
  (∀ b : List Byte, stripDelims ([0xC0#8] ++ b ++ [0xC1#8]) = b)

/-- A receive goes on as long as the line delivers bytes that complete nothing: noise without 0xC0, or with
`MAX_BODY_LEN` unbounded a body without 0xC1. -/
def Obligations.ReceiveNeedNotEnd : Prop :=
  ∀ (s : State) (chunks : List (List Byte)) (rest : List ReadResult),
    s.receiving = true → s.caller = [] → s.line.reads = chunks.map .bytes ++ rest →
    (∀ c ∈ chunks, c ≠ [] ∧ c.length ≤ s.cfg.readCapacity) →
    ((s.rxState = .waitingForStart ∧ ∀ c ∈ chunks, 0xC0#8 ∉ c) ∨
     (s.rxState = .capturing ∧ s.cfg.maxBody = .unbounded ∧ ∀ c ∈ chunks, 0xC1#8 ∉ c)) →
    ∃ t, runsTo chunks.length s t ∧ t.receiving = true ∧ t.rsp = s.rsp ∧ t.line.reads = rest ∧
      t.rxState = s.rxState ∧
      (s.rxState = .capturing → t.mem.capBuf = s.mem.capBuf ++ chunks.flatten)

/-- The machine's run of RECEIVE_FRAME is the function of R79 of the script of reads: the same outcome, the same
prefix consumed; with the script at its end first, the receive goes on. -/
def Obligations.ReceiveRunIsTheScriptFunction : Prop :=
  ∀ (s : State) (d : DataIn), s.busy = false → s.caller = [.call ⟨4#3, d⟩] →
    (∀ r ∈ s.line.reads, r.within s.cfg.readCapacity = true) →
    (∀ v rest, receiveOn s.line.reads s = some (v, rest) →
      ∃ n t, runsTo (n + 1) s t ∧ n + rest.length = s.line.reads.length ∧ t.rsp = v.response :: s.rsp ∧
        t.line.reads = rest ∧ t.busy = false ∧ t.exchStep = 0#3) ∧
    (receiveOn s.line.reads s = none →
      ∃ t, runsTo (s.line.reads.length + 1) s t ∧ t.receiving = true ∧ t.rsp = s.rsp ∧ t.line.reads = [])

/-! ### Opening and exchanging -/

/-- OPEN with `OPENED` = 0: the transport's answer decides, and nothing else of the block changes. -/
def Obligations.OpenResult : Prop :=
  ∀ (a : OpenArgs) (s : State), s.busy = false → s.opened = false →
    (∀ os, s.line.opens = .handle :: os →
      exec (.openStream a) s = .next { s with
        opened := true, rsp := ⟨0#4, []⟩ :: s.rsp,
        line := { s.line with opens := os, settings := some a, log := .opened a .handle :: s.line.log } }) ∧
    (∀ e os, s.line.opens = .error e :: os →
      exec (.openStream a) s = .next { s with
        exchStep := 0#3, rsp := ⟨2#4, []⟩ :: s.rsp,
        line := { s.line with opens := os, log := .opened a (.error e) :: s.line.log } }) ∧
    (s.line.opens = [] → ∃ t, exec (.openStream a) s = .next t ∧
      ((t.opened = true ∧ t.rsp = ⟨0#4, []⟩ :: s.rsp ∧ t.line.log = .opened a .handle :: s.line.log) ∨
       (t.opened = false ∧ t.rsp = ⟨2#4, []⟩ :: s.rsp ∧ ∃ e, t.line.log = .opened a (.error e) :: s.line.log)))

/-- EXCHANGE of a non-empty request on an open stream: the frame is written in one call; a full write begins the
receive, anything else is `WriteError` and no read. That `CRC_ACC` holds the request's checksum afterwards, and that
`X` and `F` stay after `WriteError`, is the model's choice (log 8). So is that a scripted `Written(n)` with n beyond
the frame's length, which R31 rules out, is cut to that length and counts as a full write (log 4). `out` and `walking`
are the model's own fields (log 6). -/
def Obligations.ExchangeWritesOnceThenReceives : Prop :=
  ∀ (q : List Byte) (s : State), s.busy = false → s.opened = true → s.cfg.maxPayload.admits q.length = true →
    q ≠ [] → ∃ frame t w, encodeRequest q = .ok frame ∧ exec (.exchange q) s = .next t ∧
      t.line.log = .wrote frame w :: s.line.log ∧ t.line.reads = s.line.reads ∧ t.opened = true ∧
      t.inter.x = q ++ crc16LE q ∧ t.inter.f = frame ∧ t.crcAcc = crc16 q ∧
      t.cfg = s.cfg ∧ t.caller = s.caller ∧ t.out = s.out ∧ t.escPend = s.escPend ∧
      t.walking = s.walking ∧ t.inter.b = s.inter.b ∧ t.inter.y = s.inter.y ∧ t.line.opens = s.line.opens ∧
      t.line.settings = s.line.settings ∧
      (∀ w' ws, s.line.writes = w' :: ws → w = clipWrite frame.length w' ∧ t.line.writes = ws) ∧
      (w = .written frame.length →
        t.busy = true ∧ t.exchStep = 4#3 ∧ receiveAtRest t ∧ t.rsp = s.rsp) ∧
      (w ≠ .written frame.length →
        t.busy = false ∧ t.exchStep = 0#3 ∧ t.rsp = ⟨3#4, []⟩ :: s.rsp ∧
          t.rxState = s.rxState ∧ t.emptyCnt = s.emptyCnt ∧ t.mem = s.mem)

/-- A request and its reply, end to end: with the write accepted and reads that deliver noise without 0xC0 and then
the frame of any payload, the empty one too, EXCHANGE returns that payload; the request's frame was written once,
before the reads. -/
def Obligations.ExchangeReturnsThePeersPayload : Prop :=
  ∀ (s : State) (q p frame : List Byte) (ws : List WriteResult) (init rest : List ReadResult) (last : ReadResult)
    (g t : List Byte),
    s.busy = false → s.opened = true → s.caller = [.call ⟨5#3, .bytes q⟩] → q ≠ [] →
    s.cfg.maxPayload.admits q.length = true → encodeRequest q = .ok frame →
    s.line.writes = .written frame.length :: ws →
    s.line.reads = init ++ [last] ++ rest →
    (∀ r ∈ init ++ [last], r.within s.cfg.readCapacity = true ∧ ∃ bs, r = .bytes bs) →
    ((init ++ [last]).map dataOf).flatten = g ++ wrap (escape (p ++ crc16LE p)) ++ t →
    t.length < (dataOf last).length → 0xC0#8 ∉ g →
    s.cfg.maxBody.admits (escape (p ++ crc16LE p)).length = true →
    noThreeEmpty (init.map dataOf) = true →
    ∃ u reads, runsTo (init.length + 2) s u ∧ u.busy = false ∧ u.rsp = ⟨0#4, p⟩ :: s.rsp ∧ u.line.reads = rest ∧
      u.line.log = reads ++ .wrote frame (.written frame.length) :: s.line.log ∧
      reads.length = init.length + 1 ∧ ∀ c ∈ reads, ∃ r, c = .read s.cfg.readCapacity r

/-- The machine's run of EXCHANGE is the function of R79 of its input, the write result and the script of reads. -/
def Obligations.ExchangeRunIsTheScriptFunction : Prop :=
  ∀ (s : State) (q : List Byte) (w : WriteResult) (ws : List WriteResult), s.busy = false →
    s.caller = [.call ⟨5#3, .bytes q⟩] → s.cfg.maxPayload.admits q.length = true →
    s.line.writes = w :: ws → (∀ frame, encodeRequest q = .ok frame → clipWrite frame.length w = w) →
    (∀ r ∈ s.line.reads, r.within s.cfg.readCapacity = true) →
    (∀ v rest, exchangeOn q w s.line.reads s = some (v, rest) →
      ∃ n t, runsTo (n + 1) s t ∧ n + rest.length = s.line.reads.length ∧ t.rsp = v.response :: s.rsp ∧
        t.line.reads = rest ∧ t.busy = false ∧ t.exchStep = 0#3) ∧
    (exchangeOn q w s.line.reads s = none →
      ∃ t, runsTo (s.line.reads.length + 1) s t ∧ t.receiving = true ∧ t.exchStep = 4#3 ∧ t.rsp = s.rsp ∧
        t.line.reads = [])

/-- `NotOpen` comes before every other check of EXCHANGE, the empty request's included, and before any transport
call. -/
def Obligations.NotOpenComesFirst : Prop :=
  ∀ (q : List Byte) (s : State), s.busy = false → s.opened = false → s.cfg.maxPayload.admits q.length = true →
    exec (.exchange q) s = .next { s with exchStep := 0#3, rsp := ⟨9#4, []⟩ :: s.rsp }

/-- The reserved code answers `IllegalOp`, touches no state and calls nothing. -/
def Obligations.ReservedCodeAnswersIllegalOp : Prop :=
  ∀ s : State, StepInv s → s.busy = false →
    exec .reservedOp7 s = .next { s with rsp := ⟨10#4, []⟩ :: s.rsp }

/-- A command has no step while an operation runs, OPEN none on an open stream, a bounded input none beyond its
bound. -/
def Obligations.CommandsThatHaveNoStep : Prop :=
  (∀ (i : Instr) (s : State), isCommand i = true → s.busy = true → exec i s = .refused .commandWhileBusy) ∧
  (∀ (a : OpenArgs) (s : State), s.busy = false → s.opened = true →
    exec (.openStream a) s = .refused .openWhileOpen) ∧
  (∀ (data : List Byte) (i : Instr) (s : State), s.busy = false → s.cfg.maxPayload.admits data.length = false →
    (i = .appendCrc data ∨ i = .encodeFrame data ∨ i = .decodeFrame data ∨ i = .verifyCrc data ∨
      i = .exchange data) → exec i s = .refused .inputTooLong)

/-- The receive rows exist only inside a receive, and every byte-class row only in its own context: offered alone
elsewhere it is refused, which is the model's choice (log 6). -/
def Obligations.InnerRowsNeedTheirContext : Prop :=
  (∀ (r : ReadResult) (s : State), r.within s.cfg.readCapacity = true → s.receiving = false →
    exec (.rxRead r) s = .refused .outOfContext) ∧
  (∀ s : State, s.receiving = false ∨ s.rxState = .capturing →
    exec .rxStart s = .refused .outOfContext ∧
    ∀ b : Byte, b ≠ 0xC0#8 → exec (.rxNoise b) s = .refused .outOfContext) ∧
  (∀ s : State, s.receiving = false ∨ s.rxState = .waitingForStart →
    exec .rxEnd s = .refused .outOfContext ∧
    ∀ b : Byte, b ≠ 0xC1#8 → exec (.rxBody b) s = .refused .outOfContext) ∧
  (∀ s : State, s.busy = false → s.escPending = true →
    exec .decEsc s = .refused .outOfContext ∧
    ∀ c : Byte, c ≠ 0x7D#8 → exec (.decLiteral c) s = .refused .outOfContext) ∧
  (∀ s : State, s.busy = false → s.escPending = false →
    exec .decTruncated s = .refused .outOfContext ∧
    ∀ c : Byte, exec (.decEscaped c) s = .refused .outOfContext) ∧
  (∀ (i : Instr) (s : State), s.busy = true →
    (i = .decEsc ∨ (∃ c, i = .decLiteral c) ∨ (∃ c, i = .decEscaped c) ∨ i = .decTruncated) →
    exec i s = .refused .commandWhileBusy)

/-- A read hands over at most `READ_CAPACITY` bytes, consumes what it returns, and neither loses nor repeats a byte
of the queue. -/
def Obligations.ReadsConsumeWhatTheyReturn : Prop :=
  ∀ s : State, (streamRead s).2.within s.cfg.readCapacity = true ∧
    (∀ r rest, s.line.reads = r :: rest →
      dataOf (streamRead s).2 ++ ((streamRead s).1.line.reads.map dataOf).flatten =
        (s.line.reads.map dataOf).flatten ∧
      (r.within s.cfg.readCapacity = true → (streamRead s).2 = r ∧ (streamRead s).1.line.reads = rest))
end

