-- ==== Sys2Proof/Laws/State.lean ====
section
/-! SUPPORT. One lemma for each field after each named update of the state, so that no proof unfolds the update. -/

namespace Sys2Proof.Machine

/-! ### setRxState -/

@[simp] theorem setRxState_cfg (v : RxState) (s : State) : (setRxState v s).cfg = s.cfg := rfl

@[simp] theorem setRxState_rxState (v : RxState) (s : State) :
    (setRxState v s).rxState = v := rfl

@[simp] theorem setRxState_emptyCnt (v : RxState) (s : State) : (setRxState v s).emptyCnt = s.emptyCnt := rfl

@[simp] theorem setRxState_mem (v : RxState) (s : State) : (setRxState v s).mem = s.mem := rfl

@[simp] theorem setRxState_opened (v : RxState) (s : State) : (setRxState v s).opened = s.opened := rfl

@[simp] theorem setRxState_busy (v : RxState) (s : State) : (setRxState v s).busy = s.busy := rfl

@[simp] theorem setRxState_exchStep (v : RxState) (s : State) : (setRxState v s).exchStep = s.exchStep := rfl

@[simp] theorem setRxState_crcAcc (v : RxState) (s : State) : (setRxState v s).crcAcc = s.crcAcc := rfl

@[simp] theorem setRxState_escPend (v : RxState) (s : State) : (setRxState v s).escPend = s.escPend := rfl

@[simp] theorem setRxState_inter (v : RxState) (s : State) : (setRxState v s).inter = s.inter := rfl

@[simp] theorem setRxState_out (v : RxState) (s : State) : (setRxState v s).out = s.out := rfl

@[simp] theorem setRxState_walking (v : RxState) (s : State) : (setRxState v s).walking = s.walking := rfl

@[simp] theorem setRxState_rsp (v : RxState) (s : State) : (setRxState v s).rsp = s.rsp := rfl

@[simp] theorem setRxState_line (v : RxState) (s : State) : (setRxState v s).line = s.line := rfl

@[simp] theorem setRxState_caller (v : RxState) (s : State) : (setRxState v s).caller = s.caller := rfl

/-! ### setEmptyCnt -/

@[simp] theorem setEmptyCnt_cfg (v : BitVec 2) (s : State) : (setEmptyCnt v s).cfg = s.cfg := rfl

@[simp] theorem setEmptyCnt_rxState (v : BitVec 2) (s : State) : (setEmptyCnt v s).rxState = s.rxState := rfl

@[simp] theorem setEmptyCnt_emptyCnt (v : BitVec 2) (s : State) :
    (setEmptyCnt v s).emptyCnt = v := rfl

@[simp] theorem setEmptyCnt_mem (v : BitVec 2) (s : State) : (setEmptyCnt v s).mem = s.mem := rfl

@[simp] theorem setEmptyCnt_opened (v : BitVec 2) (s : State) : (setEmptyCnt v s).opened = s.opened := rfl

@[simp] theorem setEmptyCnt_busy (v : BitVec 2) (s : State) : (setEmptyCnt v s).busy = s.busy := rfl

@[simp] theorem setEmptyCnt_exchStep (v : BitVec 2) (s : State) : (setEmptyCnt v s).exchStep = s.exchStep := rfl

@[simp] theorem setEmptyCnt_crcAcc (v : BitVec 2) (s : State) : (setEmptyCnt v s).crcAcc = s.crcAcc := rfl

@[simp] theorem setEmptyCnt_escPend (v : BitVec 2) (s : State) : (setEmptyCnt v s).escPend = s.escPend := rfl

@[simp] theorem setEmptyCnt_inter (v : BitVec 2) (s : State) : (setEmptyCnt v s).inter = s.inter := rfl

@[simp] theorem setEmptyCnt_out (v : BitVec 2) (s : State) : (setEmptyCnt v s).out = s.out := rfl

@[simp] theorem setEmptyCnt_walking (v : BitVec 2) (s : State) : (setEmptyCnt v s).walking = s.walking := rfl

@[simp] theorem setEmptyCnt_rsp (v : BitVec 2) (s : State) : (setEmptyCnt v s).rsp = s.rsp := rfl

@[simp] theorem setEmptyCnt_line (v : BitVec 2) (s : State) : (setEmptyCnt v s).line = s.line := rfl

@[simp] theorem setEmptyCnt_caller (v : BitVec 2) (s : State) : (setEmptyCnt v s).caller = s.caller := rfl

/-! ### setMem -/

@[simp] theorem setMem_cfg (v : Memory) (s : State) : (setMem v s).cfg = s.cfg := rfl

@[simp] theorem setMem_rxState (v : Memory) (s : State) : (setMem v s).rxState = s.rxState := rfl

@[simp] theorem setMem_emptyCnt (v : Memory) (s : State) : (setMem v s).emptyCnt = s.emptyCnt := rfl

@[simp] theorem setMem_mem (v : Memory) (s : State) :
    (setMem v s).mem = v := rfl

@[simp] theorem setMem_opened (v : Memory) (s : State) : (setMem v s).opened = s.opened := rfl

@[simp] theorem setMem_busy (v : Memory) (s : State) : (setMem v s).busy = s.busy := rfl

@[simp] theorem setMem_exchStep (v : Memory) (s : State) : (setMem v s).exchStep = s.exchStep := rfl

@[simp] theorem setMem_crcAcc (v : Memory) (s : State) : (setMem v s).crcAcc = s.crcAcc := rfl

@[simp] theorem setMem_escPend (v : Memory) (s : State) : (setMem v s).escPend = s.escPend := rfl

@[simp] theorem setMem_inter (v : Memory) (s : State) : (setMem v s).inter = s.inter := rfl

@[simp] theorem setMem_out (v : Memory) (s : State) : (setMem v s).out = s.out := rfl

@[simp] theorem setMem_walking (v : Memory) (s : State) : (setMem v s).walking = s.walking := rfl

@[simp] theorem setMem_rsp (v : Memory) (s : State) : (setMem v s).rsp = s.rsp := rfl

@[simp] theorem setMem_line (v : Memory) (s : State) : (setMem v s).line = s.line := rfl

@[simp] theorem setMem_caller (v : Memory) (s : State) : (setMem v s).caller = s.caller := rfl

/-! ### setOpened -/

@[simp] theorem setOpened_cfg (v : Bool) (s : State) : (setOpened v s).cfg = s.cfg := rfl

@[simp] theorem setOpened_rxState (v : Bool) (s : State) : (setOpened v s).rxState = s.rxState := rfl

@[simp] theorem setOpened_emptyCnt (v : Bool) (s : State) : (setOpened v s).emptyCnt = s.emptyCnt := rfl

@[simp] theorem setOpened_mem (v : Bool) (s : State) : (setOpened v s).mem = s.mem := rfl

@[simp] theorem setOpened_opened (v : Bool) (s : State) :
    (setOpened v s).opened = v := rfl

@[simp] theorem setOpened_busy (v : Bool) (s : State) : (setOpened v s).busy = s.busy := rfl

@[simp] theorem setOpened_exchStep (v : Bool) (s : State) : (setOpened v s).exchStep = s.exchStep := rfl

@[simp] theorem setOpened_crcAcc (v : Bool) (s : State) : (setOpened v s).crcAcc = s.crcAcc := rfl

@[simp] theorem setOpened_escPend (v : Bool) (s : State) : (setOpened v s).escPend = s.escPend := rfl

@[simp] theorem setOpened_inter (v : Bool) (s : State) : (setOpened v s).inter = s.inter := rfl

@[simp] theorem setOpened_out (v : Bool) (s : State) : (setOpened v s).out = s.out := rfl

@[simp] theorem setOpened_walking (v : Bool) (s : State) : (setOpened v s).walking = s.walking := rfl

@[simp] theorem setOpened_rsp (v : Bool) (s : State) : (setOpened v s).rsp = s.rsp := rfl

@[simp] theorem setOpened_line (v : Bool) (s : State) : (setOpened v s).line = s.line := rfl

@[simp] theorem setOpened_caller (v : Bool) (s : State) : (setOpened v s).caller = s.caller := rfl

/-! ### setBusy -/

@[simp] theorem setBusy_cfg (v : Bool) (s : State) : (setBusy v s).cfg = s.cfg := rfl

@[simp] theorem setBusy_rxState (v : Bool) (s : State) : (setBusy v s).rxState = s.rxState := rfl

@[simp] theorem setBusy_emptyCnt (v : Bool) (s : State) : (setBusy v s).emptyCnt = s.emptyCnt := rfl

@[simp] theorem setBusy_mem (v : Bool) (s : State) : (setBusy v s).mem = s.mem := rfl

@[simp] theorem setBusy_opened (v : Bool) (s : State) : (setBusy v s).opened = s.opened := rfl

@[simp] theorem setBusy_busy (v : Bool) (s : State) :
    (setBusy v s).busy = v := rfl

@[simp] theorem setBusy_exchStep (v : Bool) (s : State) : (setBusy v s).exchStep = s.exchStep := rfl

@[simp] theorem setBusy_crcAcc (v : Bool) (s : State) : (setBusy v s).crcAcc = s.crcAcc := rfl

@[simp] theorem setBusy_escPend (v : Bool) (s : State) : (setBusy v s).escPend = s.escPend := rfl

@[simp] theorem setBusy_inter (v : Bool) (s : State) : (setBusy v s).inter = s.inter := rfl

@[simp] theorem setBusy_out (v : Bool) (s : State) : (setBusy v s).out = s.out := rfl

@[simp] theorem setBusy_walking (v : Bool) (s : State) : (setBusy v s).walking = s.walking := rfl

@[simp] theorem setBusy_rsp (v : Bool) (s : State) : (setBusy v s).rsp = s.rsp := rfl

@[simp] theorem setBusy_line (v : Bool) (s : State) : (setBusy v s).line = s.line := rfl

@[simp] theorem setBusy_caller (v : Bool) (s : State) : (setBusy v s).caller = s.caller := rfl

/-! ### setExchStep -/

@[simp] theorem setExchStep_cfg (v : BitVec 3) (s : State) : (setExchStep v s).cfg = s.cfg := rfl

@[simp] theorem setExchStep_rxState (v : BitVec 3) (s : State) : (setExchStep v s).rxState = s.rxState := rfl

@[simp] theorem setExchStep_emptyCnt (v : BitVec 3) (s : State) : (setExchStep v s).emptyCnt = s.emptyCnt := rfl

@[simp] theorem setExchStep_mem (v : BitVec 3) (s : State) : (setExchStep v s).mem = s.mem := rfl

@[simp] theorem setExchStep_opened (v : BitVec 3) (s : State) : (setExchStep v s).opened = s.opened := rfl

@[simp] theorem setExchStep_busy (v : BitVec 3) (s : State) : (setExchStep v s).busy = s.busy := rfl

@[simp] theorem setExchStep_exchStep (v : BitVec 3) (s : State) :
    (setExchStep v s).exchStep = v := rfl

@[simp] theorem setExchStep_crcAcc (v : BitVec 3) (s : State) : (setExchStep v s).crcAcc = s.crcAcc := rfl

@[simp] theorem setExchStep_escPend (v : BitVec 3) (s : State) : (setExchStep v s).escPend = s.escPend := rfl

@[simp] theorem setExchStep_inter (v : BitVec 3) (s : State) : (setExchStep v s).inter = s.inter := rfl

@[simp] theorem setExchStep_out (v : BitVec 3) (s : State) : (setExchStep v s).out = s.out := rfl

@[simp] theorem setExchStep_walking (v : BitVec 3) (s : State) : (setExchStep v s).walking = s.walking := rfl

@[simp] theorem setExchStep_rsp (v : BitVec 3) (s : State) : (setExchStep v s).rsp = s.rsp := rfl

@[simp] theorem setExchStep_line (v : BitVec 3) (s : State) : (setExchStep v s).line = s.line := rfl

@[simp] theorem setExchStep_caller (v : BitVec 3) (s : State) : (setExchStep v s).caller = s.caller := rfl

/-! ### setCrcAcc -/

@[simp] theorem setCrcAcc_cfg (v : Half) (s : State) : (setCrcAcc v s).cfg = s.cfg := rfl

@[simp] theorem setCrcAcc_rxState (v : Half) (s : State) : (setCrcAcc v s).rxState = s.rxState := rfl

@[simp] theorem setCrcAcc_emptyCnt (v : Half) (s : State) : (setCrcAcc v s).emptyCnt = s.emptyCnt := rfl

@[simp] theorem setCrcAcc_mem (v : Half) (s : State) : (setCrcAcc v s).mem = s.mem := rfl

@[simp] theorem setCrcAcc_opened (v : Half) (s : State) : (setCrcAcc v s).opened = s.opened := rfl

@[simp] theorem setCrcAcc_busy (v : Half) (s : State) : (setCrcAcc v s).busy = s.busy := rfl

@[simp] theorem setCrcAcc_exchStep (v : Half) (s : State) : (setCrcAcc v s).exchStep = s.exchStep := rfl

@[simp] theorem setCrcAcc_crcAcc (v : Half) (s : State) :
    (setCrcAcc v s).crcAcc = v := rfl

@[simp] theorem setCrcAcc_escPend (v : Half) (s : State) : (setCrcAcc v s).escPend = s.escPend := rfl

@[simp] theorem setCrcAcc_inter (v : Half) (s : State) : (setCrcAcc v s).inter = s.inter := rfl

@[simp] theorem setCrcAcc_out (v : Half) (s : State) : (setCrcAcc v s).out = s.out := rfl

@[simp] theorem setCrcAcc_walking (v : Half) (s : State) : (setCrcAcc v s).walking = s.walking := rfl

@[simp] theorem setCrcAcc_rsp (v : Half) (s : State) : (setCrcAcc v s).rsp = s.rsp := rfl

@[simp] theorem setCrcAcc_line (v : Half) (s : State) : (setCrcAcc v s).line = s.line := rfl

@[simp] theorem setCrcAcc_caller (v : Half) (s : State) : (setCrcAcc v s).caller = s.caller := rfl

/-! ### setEscPend -/

@[simp] theorem setEscPend_cfg (v : Bool) (s : State) : (setEscPend v s).cfg = s.cfg := rfl

@[simp] theorem setEscPend_rxState (v : Bool) (s : State) : (setEscPend v s).rxState = s.rxState := rfl

@[simp] theorem setEscPend_emptyCnt (v : Bool) (s : State) : (setEscPend v s).emptyCnt = s.emptyCnt := rfl

@[simp] theorem setEscPend_mem (v : Bool) (s : State) : (setEscPend v s).mem = s.mem := rfl

@[simp] theorem setEscPend_opened (v : Bool) (s : State) : (setEscPend v s).opened = s.opened := rfl

@[simp] theorem setEscPend_busy (v : Bool) (s : State) : (setEscPend v s).busy = s.busy := rfl

@[simp] theorem setEscPend_exchStep (v : Bool) (s : State) : (setEscPend v s).exchStep = s.exchStep := rfl

@[simp] theorem setEscPend_crcAcc (v : Bool) (s : State) : (setEscPend v s).crcAcc = s.crcAcc := rfl

@[simp] theorem setEscPend_escPend (v : Bool) (s : State) :
    (setEscPend v s).escPend = v := rfl

@[simp] theorem setEscPend_inter (v : Bool) (s : State) : (setEscPend v s).inter = s.inter := rfl

@[simp] theorem setEscPend_out (v : Bool) (s : State) : (setEscPend v s).out = s.out := rfl

@[simp] theorem setEscPend_walking (v : Bool) (s : State) : (setEscPend v s).walking = s.walking := rfl

@[simp] theorem setEscPend_rsp (v : Bool) (s : State) : (setEscPend v s).rsp = s.rsp := rfl

@[simp] theorem setEscPend_line (v : Bool) (s : State) : (setEscPend v s).line = s.line := rfl

@[simp] theorem setEscPend_caller (v : Bool) (s : State) : (setEscPend v s).caller = s.caller := rfl

/-! ### setInter -/

@[simp] theorem setInter_cfg (v : Intermediates) (s : State) : (setInter v s).cfg = s.cfg := rfl

@[simp] theorem setInter_rxState (v : Intermediates) (s : State) : (setInter v s).rxState = s.rxState := rfl

@[simp] theorem setInter_emptyCnt (v : Intermediates) (s : State) : (setInter v s).emptyCnt = s.emptyCnt := rfl

@[simp] theorem setInter_mem (v : Intermediates) (s : State) : (setInter v s).mem = s.mem := rfl

@[simp] theorem setInter_opened (v : Intermediates) (s : State) : (setInter v s).opened = s.opened := rfl

@[simp] theorem setInter_busy (v : Intermediates) (s : State) : (setInter v s).busy = s.busy := rfl

@[simp] theorem setInter_exchStep (v : Intermediates) (s : State) : (setInter v s).exchStep = s.exchStep := rfl

@[simp] theorem setInter_crcAcc (v : Intermediates) (s : State) : (setInter v s).crcAcc = s.crcAcc := rfl

@[simp] theorem setInter_escPend (v : Intermediates) (s : State) : (setInter v s).escPend = s.escPend := rfl

@[simp] theorem setInter_inter (v : Intermediates) (s : State) :
    (setInter v s).inter = v := rfl

@[simp] theorem setInter_out (v : Intermediates) (s : State) : (setInter v s).out = s.out := rfl

@[simp] theorem setInter_walking (v : Intermediates) (s : State) : (setInter v s).walking = s.walking := rfl

@[simp] theorem setInter_rsp (v : Intermediates) (s : State) : (setInter v s).rsp = s.rsp := rfl

@[simp] theorem setInter_line (v : Intermediates) (s : State) : (setInter v s).line = s.line := rfl

@[simp] theorem setInter_caller (v : Intermediates) (s : State) : (setInter v s).caller = s.caller := rfl

/-! ### setOut -/

@[simp] theorem setOut_cfg (v : List Byte) (s : State) : (setOut v s).cfg = s.cfg := rfl

@[simp] theorem setOut_rxState (v : List Byte) (s : State) : (setOut v s).rxState = s.rxState := rfl

@[simp] theorem setOut_emptyCnt (v : List Byte) (s : State) : (setOut v s).emptyCnt = s.emptyCnt := rfl

@[simp] theorem setOut_mem (v : List Byte) (s : State) : (setOut v s).mem = s.mem := rfl

@[simp] theorem setOut_opened (v : List Byte) (s : State) : (setOut v s).opened = s.opened := rfl

@[simp] theorem setOut_busy (v : List Byte) (s : State) : (setOut v s).busy = s.busy := rfl

@[simp] theorem setOut_exchStep (v : List Byte) (s : State) : (setOut v s).exchStep = s.exchStep := rfl

@[simp] theorem setOut_crcAcc (v : List Byte) (s : State) : (setOut v s).crcAcc = s.crcAcc := rfl

@[simp] theorem setOut_escPend (v : List Byte) (s : State) : (setOut v s).escPend = s.escPend := rfl

@[simp] theorem setOut_inter (v : List Byte) (s : State) : (setOut v s).inter = s.inter := rfl

@[simp] theorem setOut_out (v : List Byte) (s : State) :
    (setOut v s).out = v := rfl

@[simp] theorem setOut_walking (v : List Byte) (s : State) : (setOut v s).walking = s.walking := rfl

@[simp] theorem setOut_rsp (v : List Byte) (s : State) : (setOut v s).rsp = s.rsp := rfl

@[simp] theorem setOut_line (v : List Byte) (s : State) : (setOut v s).line = s.line := rfl

@[simp] theorem setOut_caller (v : List Byte) (s : State) : (setOut v s).caller = s.caller := rfl

/-! ### setWalking -/

@[simp] theorem setWalking_cfg (v : Bool) (s : State) : (setWalking v s).cfg = s.cfg := rfl

@[simp] theorem setWalking_rxState (v : Bool) (s : State) : (setWalking v s).rxState = s.rxState := rfl

@[simp] theorem setWalking_emptyCnt (v : Bool) (s : State) : (setWalking v s).emptyCnt = s.emptyCnt := rfl

@[simp] theorem setWalking_mem (v : Bool) (s : State) : (setWalking v s).mem = s.mem := rfl

@[simp] theorem setWalking_opened (v : Bool) (s : State) : (setWalking v s).opened = s.opened := rfl

@[simp] theorem setWalking_busy (v : Bool) (s : State) : (setWalking v s).busy = s.busy := rfl

@[simp] theorem setWalking_exchStep (v : Bool) (s : State) : (setWalking v s).exchStep = s.exchStep := rfl

@[simp] theorem setWalking_crcAcc (v : Bool) (s : State) : (setWalking v s).crcAcc = s.crcAcc := rfl

@[simp] theorem setWalking_escPend (v : Bool) (s : State) : (setWalking v s).escPend = s.escPend := rfl

@[simp] theorem setWalking_inter (v : Bool) (s : State) : (setWalking v s).inter = s.inter := rfl

@[simp] theorem setWalking_out (v : Bool) (s : State) : (setWalking v s).out = s.out := rfl

@[simp] theorem setWalking_walking (v : Bool) (s : State) :
    (setWalking v s).walking = v := rfl

@[simp] theorem setWalking_rsp (v : Bool) (s : State) : (setWalking v s).rsp = s.rsp := rfl

@[simp] theorem setWalking_line (v : Bool) (s : State) : (setWalking v s).line = s.line := rfl

@[simp] theorem setWalking_caller (v : Bool) (s : State) : (setWalking v s).caller = s.caller := rfl

/-! ### setRsp -/

@[simp] theorem setRsp_cfg (v : List Response) (s : State) : (setRsp v s).cfg = s.cfg := rfl

@[simp] theorem setRsp_rxState (v : List Response) (s : State) : (setRsp v s).rxState = s.rxState := rfl

@[simp] theorem setRsp_emptyCnt (v : List Response) (s : State) : (setRsp v s).emptyCnt = s.emptyCnt := rfl

@[simp] theorem setRsp_mem (v : List Response) (s : State) : (setRsp v s).mem = s.mem := rfl

@[simp] theorem setRsp_opened (v : List Response) (s : State) : (setRsp v s).opened = s.opened := rfl

@[simp] theorem setRsp_busy (v : List Response) (s : State) : (setRsp v s).busy = s.busy := rfl

@[simp] theorem setRsp_exchStep (v : List Response) (s : State) : (setRsp v s).exchStep = s.exchStep := rfl

@[simp] theorem setRsp_crcAcc (v : List Response) (s : State) : (setRsp v s).crcAcc = s.crcAcc := rfl

@[simp] theorem setRsp_escPend (v : List Response) (s : State) : (setRsp v s).escPend = s.escPend := rfl

@[simp] theorem setRsp_inter (v : List Response) (s : State) : (setRsp v s).inter = s.inter := rfl

@[simp] theorem setRsp_out (v : List Response) (s : State) : (setRsp v s).out = s.out := rfl

@[simp] theorem setRsp_walking (v : List Response) (s : State) : (setRsp v s).walking = s.walking := rfl

@[simp] theorem setRsp_rsp (v : List Response) (s : State) :
    (setRsp v s).rsp = v := rfl

@[simp] theorem setRsp_line (v : List Response) (s : State) : (setRsp v s).line = s.line := rfl

@[simp] theorem setRsp_caller (v : List Response) (s : State) : (setRsp v s).caller = s.caller := rfl

/-! ### setLine -/

@[simp] theorem setLine_cfg (v : Transport) (s : State) : (setLine v s).cfg = s.cfg := rfl

@[simp] theorem setLine_rxState (v : Transport) (s : State) : (setLine v s).rxState = s.rxState := rfl

@[simp] theorem setLine_emptyCnt (v : Transport) (s : State) : (setLine v s).emptyCnt = s.emptyCnt := rfl

@[simp] theorem setLine_mem (v : Transport) (s : State) : (setLine v s).mem = s.mem := rfl

@[simp] theorem setLine_opened (v : Transport) (s : State) : (setLine v s).opened = s.opened := rfl

@[simp] theorem setLine_busy (v : Transport) (s : State) : (setLine v s).busy = s.busy := rfl

@[simp] theorem setLine_exchStep (v : Transport) (s : State) : (setLine v s).exchStep = s.exchStep := rfl

@[simp] theorem setLine_crcAcc (v : Transport) (s : State) : (setLine v s).crcAcc = s.crcAcc := rfl

@[simp] theorem setLine_escPend (v : Transport) (s : State) : (setLine v s).escPend = s.escPend := rfl

@[simp] theorem setLine_inter (v : Transport) (s : State) : (setLine v s).inter = s.inter := rfl

@[simp] theorem setLine_out (v : Transport) (s : State) : (setLine v s).out = s.out := rfl

@[simp] theorem setLine_walking (v : Transport) (s : State) : (setLine v s).walking = s.walking := rfl

@[simp] theorem setLine_rsp (v : Transport) (s : State) : (setLine v s).rsp = s.rsp := rfl

@[simp] theorem setLine_line (v : Transport) (s : State) :
    (setLine v s).line = v := rfl

@[simp] theorem setLine_caller (v : Transport) (s : State) : (setLine v s).caller = s.caller := rfl

/-! ### setCaller -/

@[simp] theorem setCaller_cfg (v : List CallerEvent) (s : State) : (setCaller v s).cfg = s.cfg := rfl

@[simp] theorem setCaller_rxState (v : List CallerEvent) (s : State) : (setCaller v s).rxState = s.rxState := rfl

@[simp] theorem setCaller_emptyCnt (v : List CallerEvent) (s : State) : (setCaller v s).emptyCnt = s.emptyCnt := rfl

@[simp] theorem setCaller_mem (v : List CallerEvent) (s : State) : (setCaller v s).mem = s.mem := rfl

@[simp] theorem setCaller_opened (v : List CallerEvent) (s : State) : (setCaller v s).opened = s.opened := rfl

@[simp] theorem setCaller_busy (v : List CallerEvent) (s : State) : (setCaller v s).busy = s.busy := rfl

@[simp] theorem setCaller_exchStep (v : List CallerEvent) (s : State) : (setCaller v s).exchStep = s.exchStep := rfl

@[simp] theorem setCaller_crcAcc (v : List CallerEvent) (s : State) : (setCaller v s).crcAcc = s.crcAcc := rfl

@[simp] theorem setCaller_escPend (v : List CallerEvent) (s : State) : (setCaller v s).escPend = s.escPend := rfl

@[simp] theorem setCaller_inter (v : List CallerEvent) (s : State) : (setCaller v s).inter = s.inter := rfl

@[simp] theorem setCaller_out (v : List CallerEvent) (s : State) : (setCaller v s).out = s.out := rfl

@[simp] theorem setCaller_walking (v : List CallerEvent) (s : State) : (setCaller v s).walking = s.walking := rfl

@[simp] theorem setCaller_rsp (v : List CallerEvent) (s : State) : (setCaller v s).rsp = s.rsp := rfl

@[simp] theorem setCaller_line (v : List CallerEvent) (s : State) : (setCaller v s).line = s.line := rfl

@[simp] theorem setCaller_caller (v : List CallerEvent) (s : State) :
    (setCaller v s).caller = v := rfl

/-! ### bufClear -/

@[simp] theorem bufClear_cfg (s : State) : (bufClear s).cfg = s.cfg := rfl

@[simp] theorem bufClear_rxState (s : State) : (bufClear s).rxState = s.rxState := rfl

@[simp] theorem bufClear_emptyCnt (s : State) : (bufClear s).emptyCnt = s.emptyCnt := rfl

@[simp] theorem bufClear_mem (s : State) :
    (bufClear s).mem = Memory.empty := rfl

@[simp] theorem bufClear_opened (s : State) : (bufClear s).opened = s.opened := rfl

@[simp] theorem bufClear_busy (s : State) : (bufClear s).busy = s.busy := rfl

@[simp] theorem bufClear_exchStep (s : State) : (bufClear s).exchStep = s.exchStep := rfl

@[simp] theorem bufClear_crcAcc (s : State) : (bufClear s).crcAcc = s.crcAcc := rfl

@[simp] theorem bufClear_escPend (s : State) : (bufClear s).escPend = s.escPend := rfl

@[simp] theorem bufClear_inter (s : State) : (bufClear s).inter = s.inter := rfl

@[simp] theorem bufClear_out (s : State) : (bufClear s).out = s.out := rfl

@[simp] theorem bufClear_walking (s : State) : (bufClear s).walking = s.walking := rfl

@[simp] theorem bufClear_rsp (s : State) : (bufClear s).rsp = s.rsp := rfl

@[simp] theorem bufClear_line (s : State) : (bufClear s).line = s.line := rfl

@[simp] theorem bufClear_caller (s : State) : (bufClear s).caller = s.caller := rfl

/-! ### bufAppend -/

@[simp] theorem bufAppend_cfg (b : Byte) (s : State) : (bufAppend b s).cfg = s.cfg := rfl

@[simp] theorem bufAppend_rxState (b : Byte) (s : State) : (bufAppend b s).rxState = s.rxState := rfl

@[simp] theorem bufAppend_emptyCnt (b : Byte) (s : State) : (bufAppend b s).emptyCnt = s.emptyCnt := rfl

@[simp] theorem bufAppend_mem (b : Byte) (s : State) :
    (bufAppend b s).mem = s.mem.append b := rfl

@[simp] theorem bufAppend_opened (b : Byte) (s : State) : (bufAppend b s).opened = s.opened := rfl

@[simp] theorem bufAppend_busy (b : Byte) (s : State) : (bufAppend b s).busy = s.busy := rfl

@[simp] theorem bufAppend_exchStep (b : Byte) (s : State) : (bufAppend b s).exchStep = s.exchStep := rfl

@[simp] theorem bufAppend_crcAcc (b : Byte) (s : State) : (bufAppend b s).crcAcc = s.crcAcc := rfl

@[simp] theorem bufAppend_escPend (b : Byte) (s : State) : (bufAppend b s).escPend = s.escPend := rfl

@[simp] theorem bufAppend_inter (b : Byte) (s : State) : (bufAppend b s).inter = s.inter := rfl

@[simp] theorem bufAppend_out (b : Byte) (s : State) : (bufAppend b s).out = s.out := rfl

@[simp] theorem bufAppend_walking (b : Byte) (s : State) : (bufAppend b s).walking = s.walking := rfl

@[simp] theorem bufAppend_rsp (b : Byte) (s : State) : (bufAppend b s).rsp = s.rsp := rfl

@[simp] theorem bufAppend_line (b : Byte) (s : State) : (bufAppend b s).line = s.line := rfl

@[simp] theorem bufAppend_caller (b : Byte) (s : State) : (bufAppend b s).caller = s.caller := rfl

/-! ### streamRead -/

@[simp] theorem streamRead_cfg (s : State) : ((streamRead s).1).cfg = s.cfg := rfl

@[simp] theorem streamRead_rxState (s : State) : ((streamRead s).1).rxState = s.rxState := rfl

@[simp] theorem streamRead_emptyCnt (s : State) : ((streamRead s).1).emptyCnt = s.emptyCnt := rfl

@[simp] theorem streamRead_mem (s : State) : ((streamRead s).1).mem = s.mem := rfl

@[simp] theorem streamRead_opened (s : State) : ((streamRead s).1).opened = s.opened := rfl

@[simp] theorem streamRead_busy (s : State) : ((streamRead s).1).busy = s.busy := rfl

@[simp] theorem streamRead_exchStep (s : State) : ((streamRead s).1).exchStep = s.exchStep := rfl

@[simp] theorem streamRead_crcAcc (s : State) : ((streamRead s).1).crcAcc = s.crcAcc := rfl

@[simp] theorem streamRead_escPend (s : State) : ((streamRead s).1).escPend = s.escPend := rfl

@[simp] theorem streamRead_inter (s : State) : ((streamRead s).1).inter = s.inter := rfl

@[simp] theorem streamRead_out (s : State) : ((streamRead s).1).out = s.out := rfl

@[simp] theorem streamRead_walking (s : State) : ((streamRead s).1).walking = s.walking := rfl

@[simp] theorem streamRead_rsp (s : State) : ((streamRead s).1).rsp = s.rsp := rfl

@[simp] theorem streamRead_line (s : State) :
    ((streamRead s).1).line = (s.line.read s.cfg.readCapacity).2.note
      (.read s.cfg.readCapacity (s.line.read s.cfg.readCapacity).1) := rfl

@[simp] theorem streamRead_caller (s : State) : ((streamRead s).1).caller = s.caller := rfl

/-! ### streamWrite -/

@[simp] theorem streamWrite_cfg (bs : List Byte) (s : State) : ((streamWrite bs s).1).cfg = s.cfg := rfl

@[simp] theorem streamWrite_rxState (bs : List Byte) (s : State) : ((streamWrite bs s).1).rxState = s.rxState := rfl

@[simp] theorem streamWrite_emptyCnt (bs : List Byte) (s : State) : ((streamWrite bs s).1).emptyCnt = s.emptyCnt := rfl

@[simp] theorem streamWrite_mem (bs : List Byte) (s : State) : ((streamWrite bs s).1).mem = s.mem := rfl

@[simp] theorem streamWrite_opened (bs : List Byte) (s : State) : ((streamWrite bs s).1).opened = s.opened := rfl

@[simp] theorem streamWrite_busy (bs : List Byte) (s : State) : ((streamWrite bs s).1).busy = s.busy := rfl

@[simp] theorem streamWrite_exchStep (bs : List Byte) (s : State) : ((streamWrite bs s).1).exchStep = s.exchStep := rfl

@[simp] theorem streamWrite_crcAcc (bs : List Byte) (s : State) : ((streamWrite bs s).1).crcAcc = s.crcAcc := rfl

@[simp] theorem streamWrite_escPend (bs : List Byte) (s : State) : ((streamWrite bs s).1).escPend = s.escPend := rfl

@[simp] theorem streamWrite_inter (bs : List Byte) (s : State) : ((streamWrite bs s).1).inter = s.inter := rfl

@[simp] theorem streamWrite_out (bs : List Byte) (s : State) : ((streamWrite bs s).1).out = s.out := rfl

@[simp] theorem streamWrite_walking (bs : List Byte) (s : State) : ((streamWrite bs s).1).walking = s.walking := rfl

@[simp] theorem streamWrite_rsp (bs : List Byte) (s : State) : ((streamWrite bs s).1).rsp = s.rsp := rfl

@[simp] theorem streamWrite_line (bs : List Byte) (s : State) :
    ((streamWrite bs s).1).line = (s.line.write bs.length).2.note (.wrote bs (s.line.write bs.length).1) := rfl

@[simp] theorem streamWrite_caller (bs : List Byte) (s : State) : ((streamWrite bs s).1).caller = s.caller := rfl

/-! ### streamOpen -/

@[simp] theorem streamOpen_cfg (a : OpenArgs) (s : State) : ((streamOpen a s).1).cfg = s.cfg := rfl

@[simp] theorem streamOpen_rxState (a : OpenArgs) (s : State) : ((streamOpen a s).1).rxState = s.rxState := rfl

@[simp] theorem streamOpen_emptyCnt (a : OpenArgs) (s : State) : ((streamOpen a s).1).emptyCnt = s.emptyCnt := rfl

@[simp] theorem streamOpen_mem (a : OpenArgs) (s : State) : ((streamOpen a s).1).mem = s.mem := rfl

@[simp] theorem streamOpen_opened (a : OpenArgs) (s : State) : ((streamOpen a s).1).opened = s.opened := rfl

@[simp] theorem streamOpen_busy (a : OpenArgs) (s : State) : ((streamOpen a s).1).busy = s.busy := rfl

@[simp] theorem streamOpen_exchStep (a : OpenArgs) (s : State) : ((streamOpen a s).1).exchStep = s.exchStep := rfl

@[simp] theorem streamOpen_crcAcc (a : OpenArgs) (s : State) : ((streamOpen a s).1).crcAcc = s.crcAcc := rfl

@[simp] theorem streamOpen_escPend (a : OpenArgs) (s : State) : ((streamOpen a s).1).escPend = s.escPend := rfl

@[simp] theorem streamOpen_inter (a : OpenArgs) (s : State) : ((streamOpen a s).1).inter = s.inter := rfl

@[simp] theorem streamOpen_out (a : OpenArgs) (s : State) : ((streamOpen a s).1).out = s.out := rfl

@[simp] theorem streamOpen_walking (a : OpenArgs) (s : State) : ((streamOpen a s).1).walking = s.walking := rfl

@[simp] theorem streamOpen_rsp (a : OpenArgs) (s : State) : ((streamOpen a s).1).rsp = s.rsp := rfl

@[simp] theorem streamOpen_line (a : OpenArgs) (s : State) :
    ((streamOpen a s).1).line = (s.line.openNext.2.settle a s.line.openNext.1).note (.opened a s.line.openNext.1) := rfl

@[simp] theorem streamOpen_caller (a : OpenArgs) (s : State) : ((streamOpen a s).1).caller = s.caller := rfl

/-! ### deliver -/

@[simp] theorem deliver_cfg (r : Response) (s : State) : (deliver r s).cfg = s.cfg := rfl

@[simp] theorem deliver_rxState (r : Response) (s : State) : (deliver r s).rxState = s.rxState := rfl

@[simp] theorem deliver_emptyCnt (r : Response) (s : State) : (deliver r s).emptyCnt = s.emptyCnt := rfl

@[simp] theorem deliver_mem (r : Response) (s : State) : (deliver r s).mem = s.mem := rfl

@[simp] theorem deliver_opened (r : Response) (s : State) : (deliver r s).opened = s.opened := rfl

@[simp] theorem deliver_busy (r : Response) (s : State) :
    (deliver r s).busy = false := rfl

@[simp] theorem deliver_exchStep (r : Response) (s : State) : (deliver r s).exchStep = s.exchStep := rfl

@[simp] theorem deliver_crcAcc (r : Response) (s : State) : (deliver r s).crcAcc = s.crcAcc := rfl

@[simp] theorem deliver_escPend (r : Response) (s : State) : (deliver r s).escPend = s.escPend := rfl

@[simp] theorem deliver_inter (r : Response) (s : State) : (deliver r s).inter = s.inter := rfl

@[simp] theorem deliver_out (r : Response) (s : State) : (deliver r s).out = s.out := rfl

@[simp] theorem deliver_walking (r : Response) (s : State) : (deliver r s).walking = s.walking := rfl

@[simp] theorem deliver_rsp (r : Response) (s : State) :
    (deliver r s).rsp = r :: s.rsp := rfl

@[simp] theorem deliver_line (r : Response) (s : State) : (deliver r s).line = s.line := rfl

@[simp] theorem deliver_caller (r : Response) (s : State) : (deliver r s).caller = s.caller := rfl

/-! ### receiveInit -/

@[simp] theorem receiveInit_cfg (s : State) : (receiveInit s).cfg = s.cfg := rfl

@[simp] theorem receiveInit_rxState (s : State) :
    (receiveInit s).rxState = .waitingForStart := rfl

@[simp] theorem receiveInit_emptyCnt (s : State) :
    (receiveInit s).emptyCnt = 0#2 := rfl

@[simp] theorem receiveInit_mem (s : State) :
    (receiveInit s).mem = Memory.empty := rfl

@[simp] theorem receiveInit_opened (s : State) : (receiveInit s).opened = s.opened := rfl

@[simp] theorem receiveInit_busy (s : State) : (receiveInit s).busy = s.busy := rfl

@[simp] theorem receiveInit_exchStep (s : State) : (receiveInit s).exchStep = s.exchStep := rfl

@[simp] theorem receiveInit_crcAcc (s : State) : (receiveInit s).crcAcc = s.crcAcc := rfl

@[simp] theorem receiveInit_escPend (s : State) : (receiveInit s).escPend = s.escPend := rfl

@[simp] theorem receiveInit_inter (s : State) : (receiveInit s).inter = s.inter := rfl

@[simp] theorem receiveInit_out (s : State) : (receiveInit s).out = s.out := rfl

@[simp] theorem receiveInit_walking (s : State) : (receiveInit s).walking = s.walking := rfl

@[simp] theorem receiveInit_rsp (s : State) : (receiveInit s).rsp = s.rsp := rfl

@[simp] theorem receiveInit_line (s : State) : (receiveInit s).line = s.line := rfl

@[simp] theorem receiveInit_caller (s : State) : (receiveInit s).caller = s.caller := rfl

/-! ### takeFailure -/

@[simp] theorem takeFailure_cfg (inReceive : Bool) (f : Failure) (data : List Byte) (s : State) : (takeFailure inReceive f data s).cfg = s.cfg := by
  cases inReceive <;> rfl

@[simp] theorem takeFailure_opened (inReceive : Bool) (f : Failure) (data : List Byte) (s : State) : (takeFailure inReceive f data s).opened = s.opened := by
  cases inReceive <;> rfl

@[simp] theorem takeFailure_busy (inReceive : Bool) (f : Failure) (data : List Byte) (s : State) :
    (takeFailure inReceive f data s).busy = false := by
  cases inReceive <;> rfl

@[simp] theorem takeFailure_exchStep (inReceive : Bool) (f : Failure) (data : List Byte) (s : State) :
    (takeFailure inReceive f data s).exchStep = 0#3 := by
  cases inReceive <;> rfl

@[simp] theorem takeFailure_crcAcc (inReceive : Bool) (f : Failure) (data : List Byte) (s : State) : (takeFailure inReceive f data s).crcAcc = s.crcAcc := by
  cases inReceive <;> rfl

@[simp] theorem takeFailure_escPend (inReceive : Bool) (f : Failure) (data : List Byte) (s : State) : (takeFailure inReceive f data s).escPend = s.escPend := by
  cases inReceive <;> rfl

@[simp] theorem takeFailure_inter (inReceive : Bool) (f : Failure) (data : List Byte) (s : State) : (takeFailure inReceive f data s).inter = s.inter := by
  cases inReceive <;> rfl

@[simp] theorem takeFailure_out (inReceive : Bool) (f : Failure) (data : List Byte) (s : State) : (takeFailure inReceive f data s).out = s.out := by
  cases inReceive <;> rfl

@[simp] theorem takeFailure_walking (inReceive : Bool) (f : Failure) (data : List Byte) (s : State) : (takeFailure inReceive f data s).walking = s.walking := by
  cases inReceive <;> rfl

@[simp] theorem takeFailure_rsp (inReceive : Bool) (f : Failure) (data : List Byte) (s : State) :
    (takeFailure inReceive f data s).rsp = (Verdict.fail f data).response :: s.rsp := by
  cases inReceive <;> rfl

@[simp] theorem takeFailure_line (inReceive : Bool) (f : Failure) (data : List Byte) (s : State) : (takeFailure inReceive f data s).line = s.line := by
  cases inReceive <;> rfl

@[simp] theorem takeFailure_caller (inReceive : Bool) (f : Failure) (data : List Byte) (s : State) : (takeFailure inReceive f data s).caller = s.caller := by
  cases inReceive <;> rfl

/-! ### applyReset -/

@[simp] theorem applyReset_cfg (s : State) : (applyReset s).cfg = s.cfg := rfl

@[simp] theorem applyReset_rxState (s : State) :
    (applyReset s).rxState = .waitingForStart := rfl

@[simp] theorem applyReset_emptyCnt (s : State) :
    (applyReset s).emptyCnt = 0#2 := rfl

@[simp] theorem applyReset_mem (s : State) :
    (applyReset s).mem = Memory.empty := rfl

@[simp] theorem applyReset_opened (s : State) :
    (applyReset s).opened = false := rfl

@[simp] theorem applyReset_busy (s : State) :
    (applyReset s).busy = false := rfl

@[simp] theorem applyReset_exchStep (s : State) :
    (applyReset s).exchStep = 0#3 := rfl

@[simp] theorem applyReset_crcAcc (s : State) :
    (applyReset s).crcAcc = 0#16 := rfl

@[simp] theorem applyReset_escPend (s : State) :
    (applyReset s).escPend = false := rfl

@[simp] theorem applyReset_inter (s : State) :
    (applyReset s).inter = { x := [], f := [], b := [], y := [] } := rfl

@[simp] theorem applyReset_out (s : State) :
    (applyReset s).out = [] := rfl

@[simp] theorem applyReset_walking (s : State) :
    (applyReset s).walking = false := rfl

@[simp] theorem applyReset_rsp (s : State) : (applyReset s).rsp = s.rsp := rfl

@[simp] theorem applyReset_line (s : State) : (applyReset s).line = s.line := rfl

@[simp] theorem applyReset_caller (s : State) : (applyReset s).caller = s.caller := rfl

/-! ### computeCrc -/

@[simp] theorem computeCrc_cfg (data : List Byte) (s : State) : (computeCrc data s).cfg = s.cfg := by
  unfold computeCrc; split <;> rfl

@[simp] theorem computeCrc_rxState (data : List Byte) (s : State) : (computeCrc data s).rxState = s.rxState := by
  unfold computeCrc; split <;> rfl

@[simp] theorem computeCrc_emptyCnt (data : List Byte) (s : State) : (computeCrc data s).emptyCnt = s.emptyCnt := by
  unfold computeCrc; split <;> rfl

@[simp] theorem computeCrc_mem (data : List Byte) (s : State) : (computeCrc data s).mem = s.mem := by
  unfold computeCrc; split <;> rfl

@[simp] theorem computeCrc_opened (data : List Byte) (s : State) : (computeCrc data s).opened = s.opened := by
  unfold computeCrc; split <;> rfl

@[simp] theorem computeCrc_busy (data : List Byte) (s : State) : (computeCrc data s).busy = s.busy := by
  unfold computeCrc; split <;> rfl

@[simp] theorem computeCrc_exchStep (data : List Byte) (s : State) : (computeCrc data s).exchStep = s.exchStep := by
  unfold computeCrc; split <;> rfl

@[simp] theorem computeCrc_crcAcc (data : List Byte) (s : State) :
    (computeCrc data s).crcAcc = if data.isEmpty then s.crcAcc else crc16 data := by
  unfold computeCrc; split <;> rfl

@[simp] theorem computeCrc_escPend (data : List Byte) (s : State) : (computeCrc data s).escPend = s.escPend := by
  unfold computeCrc; split <;> rfl

@[simp] theorem computeCrc_inter (data : List Byte) (s : State) : (computeCrc data s).inter = s.inter := by
  unfold computeCrc; split <;> rfl

@[simp] theorem computeCrc_out (data : List Byte) (s : State) : (computeCrc data s).out = s.out := by
  unfold computeCrc; split <;> rfl

@[simp] theorem computeCrc_walking (data : List Byte) (s : State) : (computeCrc data s).walking = s.walking := by
  unfold computeCrc; split <;> rfl

@[simp] theorem computeCrc_rsp (data : List Byte) (s : State) : (computeCrc data s).rsp = s.rsp := by
  unfold computeCrc; split <;> rfl

@[simp] theorem computeCrc_line (data : List Byte) (s : State) : (computeCrc data s).line = s.line := by
  unfold computeCrc; split <;> rfl

@[simp] theorem computeCrc_caller (data : List Byte) (s : State) : (computeCrc data s).caller = s.caller := by
  unfold computeCrc; split <;> rfl

/-! ### walkBody -/

@[simp] theorem walkBody_cfg (b : List Byte) (s : State) : (walkBody b s).cfg = s.cfg := by
  unfold walkBody; split <;> rfl

@[simp] theorem walkBody_rxState (b : List Byte) (s : State) : (walkBody b s).rxState = s.rxState := by
  unfold walkBody; split <;> rfl

@[simp] theorem walkBody_emptyCnt (b : List Byte) (s : State) : (walkBody b s).emptyCnt = s.emptyCnt := by
  unfold walkBody; split <;> rfl

@[simp] theorem walkBody_mem (b : List Byte) (s : State) : (walkBody b s).mem = s.mem := by
  unfold walkBody; split <;> rfl

@[simp] theorem walkBody_opened (b : List Byte) (s : State) : (walkBody b s).opened = s.opened := by
  unfold walkBody; split <;> rfl

@[simp] theorem walkBody_busy (b : List Byte) (s : State) : (walkBody b s).busy = s.busy := by
  unfold walkBody; split <;> rfl

@[simp] theorem walkBody_exchStep (b : List Byte) (s : State) : (walkBody b s).exchStep = s.exchStep := by
  unfold walkBody; split <;> rfl

@[simp] theorem walkBody_crcAcc (b : List Byte) (s : State) : (walkBody b s).crcAcc = s.crcAcc := by
  unfold walkBody; split <;> rfl

@[simp] theorem walkBody_escPend (b : List Byte) (s : State) :
    (walkBody b s).escPend = if b.isEmpty then s.escPend else (decodeWalk b).escPend := by
  unfold walkBody; split <;> rfl

@[simp] theorem walkBody_inter (b : List Byte) (s : State) : (walkBody b s).inter = s.inter := by
  unfold walkBody; split <;> rfl

@[simp] theorem walkBody_out (b : List Byte) (s : State) : (walkBody b s).out = s.out := by
  unfold walkBody; split <;> rfl

@[simp] theorem walkBody_walking (b : List Byte) (s : State) :
    (walkBody b s).walking = if b.isEmpty then s.walking else false := by
  unfold walkBody; split <;> rfl

@[simp] theorem walkBody_rsp (b : List Byte) (s : State) : (walkBody b s).rsp = s.rsp := by
  unfold walkBody; split <;> rfl

@[simp] theorem walkBody_line (b : List Byte) (s : State) : (walkBody b s).line = s.line := by
  unfold walkBody; split <;> rfl

@[simp] theorem walkBody_caller (b : List Byte) (s : State) : (walkBody b s).caller = s.caller := by
  unfold walkBody; split <;> rfl

/-! ### yieldOut -/

@[simp] theorem yieldOut_cfg (bs : List Byte) (s : State) : (yieldOut bs s).cfg = s.cfg := rfl

@[simp] theorem yieldOut_rxState (bs : List Byte) (s : State) : (yieldOut bs s).rxState = s.rxState := rfl

@[simp] theorem yieldOut_emptyCnt (bs : List Byte) (s : State) : (yieldOut bs s).emptyCnt = s.emptyCnt := rfl

@[simp] theorem yieldOut_mem (bs : List Byte) (s : State) : (yieldOut bs s).mem = s.mem := rfl

@[simp] theorem yieldOut_opened (bs : List Byte) (s : State) : (yieldOut bs s).opened = s.opened := rfl

@[simp] theorem yieldOut_busy (bs : List Byte) (s : State) : (yieldOut bs s).busy = s.busy := rfl

@[simp] theorem yieldOut_exchStep (bs : List Byte) (s : State) : (yieldOut bs s).exchStep = s.exchStep := rfl

@[simp] theorem yieldOut_crcAcc (bs : List Byte) (s : State) : (yieldOut bs s).crcAcc = s.crcAcc := rfl

@[simp] theorem yieldOut_escPend (bs : List Byte) (s : State) : (yieldOut bs s).escPend = s.escPend := rfl

@[simp] theorem yieldOut_inter (bs : List Byte) (s : State) : (yieldOut bs s).inter = s.inter := rfl

@[simp] theorem yieldOut_out (bs : List Byte) (s : State) :
    (yieldOut bs s).out = bs := rfl

@[simp] theorem yieldOut_walking (bs : List Byte) (s : State) : (yieldOut bs s).walking = s.walking := rfl

@[simp] theorem yieldOut_rsp (bs : List Byte) (s : State) : (yieldOut bs s).rsp = s.rsp := rfl

@[simp] theorem yieldOut_line (bs : List Byte) (s : State) : (yieldOut bs s).line = s.line := rfl

@[simp] theorem yieldOut_caller (bs : List Byte) (s : State) : (yieldOut bs s).caller = s.caller := rfl

/-! ### emit -/

@[simp] theorem emit_cfg (bs : List Byte) (s : State) : (emit bs s).cfg = s.cfg := rfl

@[simp] theorem emit_rxState (bs : List Byte) (s : State) : (emit bs s).rxState = s.rxState := rfl

@[simp] theorem emit_emptyCnt (bs : List Byte) (s : State) : (emit bs s).emptyCnt = s.emptyCnt := rfl

@[simp] theorem emit_mem (bs : List Byte) (s : State) : (emit bs s).mem = s.mem := rfl

@[simp] theorem emit_opened (bs : List Byte) (s : State) : (emit bs s).opened = s.opened := rfl

@[simp] theorem emit_busy (bs : List Byte) (s : State) : (emit bs s).busy = s.busy := rfl

@[simp] theorem emit_exchStep (bs : List Byte) (s : State) : (emit bs s).exchStep = s.exchStep := rfl

@[simp] theorem emit_crcAcc (bs : List Byte) (s : State) : (emit bs s).crcAcc = s.crcAcc := rfl

@[simp] theorem emit_escPend (bs : List Byte) (s : State) : (emit bs s).escPend = s.escPend := rfl

@[simp] theorem emit_inter (bs : List Byte) (s : State) : (emit bs s).inter = s.inter := rfl

@[simp] theorem emit_out (bs : List Byte) (s : State) :
    (emit bs s).out = s.out ++ bs := rfl

@[simp] theorem emit_walking (bs : List Byte) (s : State) : (emit bs s).walking = s.walking := rfl

@[simp] theorem emit_rsp (bs : List Byte) (s : State) : (emit bs s).rsp = s.rsp := rfl

@[simp] theorem emit_line (bs : List Byte) (s : State) : (emit bs s).line = s.line := rfl

@[simp] theorem emit_caller (bs : List Byte) (s : State) : (emit bs s).caller = s.caller := rfl

/-! ### withWalk -/

@[simp] theorem withWalk_cfg (w : Walk) (s : State) : (withWalk w s).cfg = s.cfg := rfl

@[simp] theorem withWalk_rxState (w : Walk) (s : State) : (withWalk w s).rxState = s.rxState := rfl

@[simp] theorem withWalk_emptyCnt (w : Walk) (s : State) : (withWalk w s).emptyCnt = s.emptyCnt := rfl

@[simp] theorem withWalk_mem (w : Walk) (s : State) : (withWalk w s).mem = s.mem := rfl

@[simp] theorem withWalk_opened (w : Walk) (s : State) : (withWalk w s).opened = s.opened := rfl

@[simp] theorem withWalk_busy (w : Walk) (s : State) : (withWalk w s).busy = s.busy := rfl

@[simp] theorem withWalk_exchStep (w : Walk) (s : State) : (withWalk w s).exchStep = s.exchStep := rfl

@[simp] theorem withWalk_crcAcc (w : Walk) (s : State) : (withWalk w s).crcAcc = s.crcAcc := rfl

@[simp] theorem withWalk_escPend (w : Walk) (s : State) :
    (withWalk w s).escPend = w.escPend := rfl

@[simp] theorem withWalk_inter (w : Walk) (s : State) : (withWalk w s).inter = s.inter := rfl

@[simp] theorem withWalk_out (w : Walk) (s : State) :
    (withWalk w s).out = w.out := rfl

@[simp] theorem withWalk_walking (w : Walk) (s : State) :
    (withWalk w s).walking = true := rfl

@[simp] theorem withWalk_rsp (w : Walk) (s : State) : (withWalk w s).rsp = s.rsp := rfl

@[simp] theorem withWalk_line (w : Walk) (s : State) : (withWalk w s).line = s.line := rfl

@[simp] theorem withWalk_caller (w : Walk) (s : State) : (withWalk w s).caller = s.caller := rfl

/-! ### takeFailure's clean-up of a receive -/

@[simp] theorem takeFailure_false_rxState (f : Failure) (data : List Byte) (s : State) :
    (takeFailure false f data s).rxState = s.rxState := rfl

@[simp] theorem takeFailure_false_emptyCnt (f : Failure) (data : List Byte) (s : State) :
    (takeFailure false f data s).emptyCnt = s.emptyCnt := rfl

@[simp] theorem takeFailure_false_mem (f : Failure) (data : List Byte) (s : State) :
    (takeFailure false f data s).mem = s.mem := rfl

@[simp] theorem takeFailure_true_rxState (f : Failure) (data : List Byte) (s : State) :
    (takeFailure true f data s).rxState = .waitingForStart := rfl

@[simp] theorem takeFailure_true_emptyCnt (f : Failure) (data : List Byte) (s : State) :
    (takeFailure true f data s).emptyCnt = 0#2 := rfl

@[simp] theorem takeFailure_true_mem (f : Failure) (data : List Byte) (s : State) :
    (takeFailure true f data s).mem = Memory.empty := rfl

/-! ### conclude -/

@[simp] theorem conclude_busy (v : Verdict) (s : State) : (conclude v s).busy = false := by cases v <;> rfl

@[simp] theorem conclude_rsp (v : Verdict) (s : State) : (conclude v s).rsp = v.response :: s.rsp := by
  cases v <;> rfl

@[simp] theorem conclude_ok_exchStep (data : List Byte) (s : State) :
    (conclude (.ok data) s).exchStep = s.exchStep := rfl

@[simp] theorem conclude_fail_exchStep (f : Failure) (data : List Byte) (s : State) :
    (conclude (.fail f data) s).exchStep = 0#3 := rfl

@[simp] theorem conclude_cfg (v : Verdict) (s : State) : (conclude v s).cfg = s.cfg := by cases v <;> rfl

@[simp] theorem conclude_rxState (v : Verdict) (s : State) : (conclude v s).rxState = s.rxState := by cases v <;> rfl

@[simp] theorem conclude_emptyCnt (v : Verdict) (s : State) : (conclude v s).emptyCnt = s.emptyCnt := by cases v <;> rfl

@[simp] theorem conclude_mem (v : Verdict) (s : State) : (conclude v s).mem = s.mem := by cases v <;> rfl

@[simp] theorem conclude_opened (v : Verdict) (s : State) : (conclude v s).opened = s.opened := by cases v <;> rfl

@[simp] theorem conclude_crcAcc (v : Verdict) (s : State) : (conclude v s).crcAcc = s.crcAcc := by cases v <;> rfl

@[simp] theorem conclude_escPend (v : Verdict) (s : State) : (conclude v s).escPend = s.escPend := by cases v <;> rfl

@[simp] theorem conclude_inter (v : Verdict) (s : State) : (conclude v s).inter = s.inter := by cases v <;> rfl

@[simp] theorem conclude_out (v : Verdict) (s : State) : (conclude v s).out = s.out := by cases v <;> rfl

@[simp] theorem conclude_walking (v : Verdict) (s : State) : (conclude v s).walking = s.walking := by cases v <;> rfl

@[simp] theorem conclude_line (v : Verdict) (s : State) : (conclude v s).line = s.line := by cases v <;> rfl

@[simp] theorem conclude_caller (v : Verdict) (s : State) : (conclude v s).caller = s.caller := by cases v <;> rfl

/-! ### Memory, Transport and outcomes -/

@[simp] theorem empty_capBuf : Memory.empty.capBuf = [] := rfl

@[simp] theorem empty_capLen : Memory.empty.capLen = 0 := rfl

@[simp] theorem append_capBuf (b : Byte) (m : Memory) : (m.append b).capBuf = m.capBuf ++ [b] := rfl

@[simp] theorem append_capLen (b : Byte) (m : Memory) : (m.append b).capLen = m.capLen + 1 := rfl

@[simp] theorem note_log (c : TpCall) (t : Transport) : (t.note c).log = c :: t.log := rfl

@[simp] theorem note_reads (c : TpCall) (t : Transport) : (t.note c).reads = t.reads := rfl

@[simp] theorem note_writes (c : TpCall) (t : Transport) : (t.note c).writes = t.writes := rfl

@[simp] theorem note_opens (c : TpCall) (t : Transport) : (t.note c).opens = t.opens := rfl

@[simp] theorem note_settings (c : TpCall) (t : Transport) : (t.note c).settings = t.settings := rfl

@[simp] theorem note_drawn (c : TpCall) (t : Transport) : (t.note c).drawn = t.drawn := rfl

@[simp] theorem response_ok (data : List Byte) : (Verdict.ok data).response = ⟨0#4, data⟩ := rfl

@[simp] theorem response_fail (f : Failure) (data : List Byte) :
    (Verdict.fail f data).response = ⟨f.code, data⟩ := rfl

@[simp] theorem streamRead_result (s : State) : (streamRead s).2 = (s.line.read s.cfg.readCapacity).1 := rfl

@[simp] theorem streamWrite_result (bs : List Byte) (s : State) :
    (streamWrite bs s).2 = (s.line.write bs.length).1 := rfl

@[simp] theorem streamOpen_result (a : OpenArgs) (s : State) : (streamOpen a s).2 = s.line.openNext.1 := rfl

end Sys2Proof.Machine
end

