-- ==== Sys2Proof/Laws/Checksum.lean ====
section
/-! SUPPORT. The checksum (40_checksum.md R56): its shift step is linear and one to one, one byte splits into the
table and a shift, and it runs over a concatenation piece by piece; and what APPEND_CRC and VERIFY_CRC answer. -/

namespace Sys2Proof.Machine

@[simp] theorem crc16_nil : crc16 [] = 0xFFFF#16 := rfl

theorem crc16_append (s t : List Byte) : crc16 (s ++ t) = t.foldl crcByte (crc16 s) := List.foldl_append

/-- A shift step is linear. -/
theorem crcShift_xor (a b : Half) : crcShift (a ^^^ b) = crcShift a ^^^ crcShift b := by
  unfold crcShift
  have : (a ^^^ b).getLsbD 0 = (a.getLsbD 0 ^^ b.getLsbD 0) := by simp
  rw [this]
  cases a.getLsbD 0 <;> cases b.getLsbD 0 <;> simp [BitVec.ushiftRight_xor_distrib]
  · ac_rfl
  · ac_rfl
  · rw [show (a >>> 1 ^^^ 40961#16 ^^^ (b >>> 1 ^^^ 40961#16)) = (a >>> 1 ^^^ b>>>1) ^^^ (40961#16 ^^^ 40961#16) by ac_rfl]; simp

theorem crcShift8_xor (a b : Half) : crcShift8 (a ^^^ b) = crcShift8 a ^^^ crcShift8 b := by
  simp [crcShift8, crcShift_xor]

/-- A shift step sends nothing but 0 to 0. -/
theorem crcShift_zero_iff (a : Half) : crcShift a = 0#16 ↔ a = 0#16 := by
  constructor
  · intro h
    unfold crcShift at h
    split at h
    · exfalso
      have : (a >>> 1 ^^^ 40961#16).getLsbD 15 = true := by simp
      rw [h] at this; simp at this
    · rename_i h0
      apply BitVec.eq_of_getLsbD_eq
      intro i hi
      rcases i with _ | i
      · simpa using h0
      · have := congrArg (fun x : Half => x.getLsbD i) h
        simpa [Nat.add_comm] using this
  · rintro rfl; decide

theorem crcShift8_zero_iff (a : Half) : crcShift8 a = 0#16 ↔ a = 0#16 := by simp [crcShift8, crcShift_zero_iff]

/-- Eight shift steps are one to one. -/
theorem crcShift8_inj (a b : Half) (h : crcShift8 a = crcShift8 b) : a = b := by
  have : crcShift8 (a ^^^ b) = 0#16 := by rw [crcShift8_xor, h]; simp
  rw [crcShift8_zero_iff] at this
  simpa using this

/-- With only zeros below, a shift step is a plain shift. -/
theorem crcShift_shl (h : Byte) (k : Nat) (hk : k ≤ 7) : crcShift (h.setWidth 16 <<< (k + 1)) = h.setWidth 16 <<< k := by
  have h0 : (h.setWidth 16 <<< (k + 1) : Half).getLsbD 0 = false := by simp
  unfold crcShift
  rw [h0]
  apply BitVec.eq_of_getLsbD_eq; intro i hi
  by_cases hik : i < k
  · simp [hik, show 1 + i < k + 1 by omega]
  · by_cases h15 : i = 15
    · subst h15; simp [show ¬ (15 < k) by omega]
      have : 8 ≤ 15 - k := by omega
      exact BitVec.getLsbD_of_ge _ _ this
    · simp [hik, show ¬ (1 + i < k + 1) by omega, show 1 + i < 16 by omega, show 1 + i - (k+1) = i - k by omega, hi]

/-- Eight shift steps on a register whose low byte is 0 move the high byte down. -/
theorem crcShift8_high (h : Byte) : crcShift8 (h.setWidth 16 <<< 8) = h.setWidth 16 := by
  unfold crcShift8
  iterate 8 rw [crcShift_shl _ _ (by omega)]
  simp

/-- A register is its two bytes. -/
theorem half_split (a : Half) : a = (lo a).setWidth 16 ^^^ ((hi a).setWidth 16 <<< 8) := by
  apply BitVec.eq_of_getLsbD_eq; intro i hi'
  by_cases h : i < 8
  · simp [lo, hi, h, hi']
  · have : 8 + (i - 8) = i := by omega
    simp [lo, hi, h, hi', this, show i - 8 < 8 by omega]

theorem hi_setWidth (a : Half) : (hi a).setWidth 16 = a >>> 8 := by
  apply BitVec.eq_of_getLsbD_eq; intro i hi'
  by_cases h : i < 8
  · simp [hi, h, hi']
  · simp [hi, h]; exact BitVec.getLsbD_of_ge _ _ (by omega)

/-- One byte of the checksum is a table entry and the high byte moved down. -/
theorem crcByte_split (a : Half) (b : Byte) : crcByte a b = crcTable (lo a ^^^ b) ^^^ (hi a).setWidth 16 := by
  unfold crcByte crcTable
  conv_lhs => rw [half_split a]
  rw [show ((lo a).setWidth 16 ^^^ ((hi a).setWidth 16 <<< 8) ^^^ b.setWidth 16 : Half) = ((lo a ^^^ b).setWidth 16) ^^^ ((hi a).setWidth 16 <<< 8) by
    rw [BitVec.setWidth_xor]; ac_rfl]
  rw [crcShift8_xor, crcShift8_high]


/-- One byte loses nothing of the register. -/
theorem crcByte_inj {a b : Half} {x : Byte} (h : crcByte a x = crcByte b x) : a = b := by
  simpa using crcShift8_inj _ _ h

/-! ### The two operations as functions -/

theorem appendCrc_ok {p : List Byte} (h : p ≠ []) : appendCrc p = .ok (p ++ crc16LE p) := by simp [appendCrc, h]

theorem appendCrc_fail {p d : List Byte} {f : Failure} (h : appendCrc p = .fail f d) :
    p = [] ∧ f = .emptyInput ∧ d = [] := by
  unfold appendCrc at h; split at h <;> simp_all

theorem verifyCrc_ok {x : List Byte} (h : x ≠ []) (hc : crc16 x = 0#16) : verifyCrc x = .ok (stripCrc x) := by
  simp [verifyCrc, h, hc]

theorem verifyCrc_mismatch {x : List Byte} (h : x ≠ []) (hc : crc16 x ≠ 0#16) :
    verifyCrc x = .fail .checksumMismatch (stripCrc x) := by simp [verifyCrc, h, hc]

/-- Only `ChecksumMismatch` carries data. -/
theorem verifyCrc_fail {x d : List Byte} {f : Failure} (h : verifyCrc x = .fail f d) (hf : f ≠ .checksumMismatch) :
    d = [] := by
  unfold verifyCrc at h; split at h
  · simp_all
  · split at h <;> simp_all

theorem stripCrc_eq_take (x : List Byte) : stripCrc x = x.take (x.length - 2) := by
  unfold stripCrc; split
  · rfl
  · rw [show x.length - 2 = 0 by omega, List.take_zero]

theorem stripCrc_append (p : List Byte) (a b : Byte) : stripCrc (p ++ [a, b]) = p := by
  simp [stripCrc_eq_take]

end Sys2Proof.Machine
end

