-- ==== Sys2Proof/Laws/EscapeWrap.lean ====
section
/-! SUPPORT. Escaping (41_escape_wrap.md R61) and the decoder's walk (R65): byte by byte, over a concatenation, and
what ENCODE_FRAME and DECODE_FRAME answer. -/

namespace Sys2Proof.Machine

/-- The escape operand undoes itself (30_encoding.md R48). -/
@[simp] theorem escapeOperand_twice (b : Byte) : escapeOperand (escapeOperand b) = b := by
  simp [escapeOperand]

@[simp] theorem escape_nil : escape [] = [] := rfl

@[simp] theorem escape_cons (b : Byte) (x : List Byte) : escape (b :: x) = escapeByte b ++ escape x := rfl

@[simp] theorem escape_append (x y : List Byte) : escape (x ++ y) = escape x ++ escape y := by simp [escape]

/-- One byte gives itself, or for a reserved byte the pair. -/
theorem escapeByte_cases (b : Byte) :
    (reserved b = false ∧ escapeByte b = [b]) ∨ (reserved b = true ∧ escapeByte b = [ESC, escapeOperand b]) := by
  unfold escapeByte escapePair; cases reserved b <;> simp

theorem reserved_iff (b : Byte) : reserved b = true ↔ b = START ∨ b = END ∨ b = ESC := by
  simp [reserved, or_assoc]

theorem escape_ne_nil {x : List Byte} (h : x ≠ []) : escape x ≠ [] := by
  cases x with
  | nil => exact absurd rfl h
  | cons b x => rcases escapeByte_cases b with ⟨_, h⟩ | ⟨_, h⟩ <;> simp [h]

/-- Escaping adds one byte for each reserved byte. -/
theorem escape_length (x : List Byte) : (escape x).length = x.length + x.countP reserved := by
  induction x with
  | nil => rfl
  | cons b x ih =>
    rcases escapeByte_cases b with ⟨hr, h⟩ | ⟨hr, h⟩ <;> simp [h, ih, hr] <;> omega

@[simp] theorem stripDelims_wrap (e : List Byte) : stripDelims (wrap e) = e := by simp [stripDelims, wrap]

/-! ### The walk -/

@[simp] theorem decodeWalk_nil : decodeWalk [] = ⟨false, []⟩ := rfl

theorem walk_marker (o : List Byte) : Walk.byte ⟨false, o⟩ ESC = ⟨true, o⟩ := by simp [Walk.byte, Walk.marker]

theorem walk_literal {c : Byte} (o : List Byte) (h : c ≠ ESC) : Walk.byte ⟨false, o⟩ c = ⟨false, o ++ [c]⟩ := by
  simp [Walk.byte, Walk.literal, h]

theorem walk_escaped (c : Byte) (o : List Byte) :
    Walk.byte ⟨true, o⟩ c = ⟨false, o ++ [escapeOperand c]⟩ := by simp [Walk.byte, Walk.escaped]

/-- What was emitted before stands in front of what a walk emits. -/
theorem walk_out (b : List Byte) (p : Bool) (o : List Byte) :
    b.foldl Walk.byte ⟨p, o⟩ =
      ⟨(b.foldl Walk.byte ⟨p, []⟩).escPend, o ++ (b.foldl Walk.byte ⟨p, []⟩).out⟩ := by
  induction b generalizing p o with
  | nil => simp
  | cons c b ih =>
    simp only [List.foldl_cons]
    by_cases hp : p
    · subst hp
      rw [walk_escaped, walk_escaped, ih, ih false ([] ++ _)]; simp
    · obtain rfl : p = false := by simpa using hp
      by_cases hc : c = ESC
      · subst hc; rw [walk_marker, walk_marker, ih]
      · rw [walk_literal _ hc, walk_literal _ hc, ih, ih false ([] ++ _)]; simp

/-- The walk undoes the escaping of one byte. -/
theorem walk_escapeByte (b : Byte) (o : List Byte) :
    (escapeByte b).foldl Walk.byte ⟨false, o⟩ = ⟨false, o ++ [b]⟩ := by
  rcases escapeByte_cases b with ⟨hr, h⟩ | ⟨hr, h⟩ <;> rw [h]
  · have hb : b ≠ ESC := by rintro rfl; simp [reserved] at hr
    simp [walk_literal _ hb]
  · simp [walk_marker, walk_escaped]

/-! ### The two operations as functions -/

theorem encodeFrame_ok {x : List Byte} (h : x ≠ []) : encodeFrame x = .ok (wrap (escape x)) := by simp [encodeFrame, h]

theorem encodeFrame_eq_ok {x f : List Byte} : encodeFrame x = .ok f ↔ x ≠ [] ∧ wrap (escape x) = f := by
  unfold encodeFrame; cases x <;> simp

theorem encodeFrame_fail {x d : List Byte} {f : Failure} (h : encodeFrame x = .fail f d) :
    x = [] ∧ f = .emptyInput ∧ d = [] := by
  unfold encodeFrame at h; split at h <;> simp_all

theorem decodeFrame_eq_ok {b y : List Byte} : decodeFrame b = .ok y ↔ b ≠ [] ∧ decodeWalk b = ⟨false, y⟩ := by
  unfold decodeFrame
  rcases hw : decodeWalk b with ⟨p, o⟩
  cases b <;> cases p <;> simp

/-- A body that does not decode carries no data. -/
theorem decodeFrame_fail {b d : List Byte} {f : Failure} (h : decodeFrame b = .fail f d) : d = [] := by
  unfold decodeFrame at h; split at h
  · simp_all
  · split at h <;> simp_all

/-! ### A walk driven row by row -/

theorem escPending_iff {s : State} :
    s.escPending = true ↔ s.busy = false ∧ s.walking = true ∧ s.escPend = true := by
  simp [State.escPending, and_assoc]

@[simp] theorem escPending_setCaller (v : List CallerEvent) (s : State) :
    (setCaller v s).escPending = s.escPending := rfl

theorem walkOf_under_way {s : State} (h : s.walking = true) : walkOf s = ⟨s.escPend, s.out⟩ := by simp [walkOf, h]

theorem walkOf_outside {s : State} (h : s.walking = false) : walkOf s = ⟨false, []⟩ := by simp [walkOf, h]

@[simp] theorem walkOf_withWalk (w : Walk) (s : State) : walkOf (withWalk w s) = w := rfl

@[simp] theorem walkOf_setCaller (v : List CallerEvent) (s : State) : walkOf (setCaller v s) = walkOf s := rfl

/-- On an idle block the marker that decides between two decoder rows is the walk's. -/
theorem walkOf_escPend {s : State} (h : s.busy = false) : (walkOf s).escPend = s.escPending := by
  cases hw : s.walking <;> simp [walkOf, State.escPending, h, hw]

end Sys2Proof.Machine
end

