-- ==== Sys2Proof/Laws/Guards.lean ====
section
/-! SUPPORT. The guards of commands, inner rows and receive rows: when each answers a next state, and which. -/

namespace Sys2Proof.Machine

theorem accept_next {s t : State} {k : State → Host.Outcome State Fault Refusal} :
    accept s k = .next t ↔ s.busy = false ∧ k (setBusy true s) = .next t := by
  unfold accept; cases s.busy <;> simp

@[simp] theorem accept_idle {s : State} (k : State → Host.Outcome State Fault Refusal) (h : s.busy = false) :
    accept s k = k (setBusy true s) := by simp [accept, h]

@[simp] theorem accept_busy {s : State} (k : State → Host.Outcome State Fault Refusal) (h : s.busy = true) :
    accept s k = .refused .commandWhileBusy := by simp [accept, h]

theorem acceptBytes_next {data : List Byte} {s t : State} {k : State → Host.Outcome State Fault Refusal} :
    acceptBytes data s k = .next t ↔
      s.busy = false ∧ s.cfg.maxPayload.admits data.length = true ∧ k (setBusy true s) = .next t := by
  unfold acceptBytes
  cases s.busy <;> cases s.cfg.maxPayload.admits data.length <;> simp

@[simp] theorem acceptBytes_idle {data : List Byte} {s : State} (k : State → Host.Outcome State Fault Refusal)
    (h : s.busy = false) (ha : s.cfg.maxPayload.admits data.length = true) :
    acceptBytes data s k = k (setBusy true s) := by simp [acceptBytes, h, ha]

@[simp] theorem acceptBytes_busy {data : List Byte} {s : State} (k : State → Host.Outcome State Fault Refusal)
    (h : s.busy = true) : acceptBytes data s k = .refused .commandWhileBusy := by simp [acceptBytes, h]

theorem innerRow_next {admitted here : Bool} {s u t : State} :
    innerRow admitted here s u = .next t ↔ s.busy = false ∧ admitted = true ∧ here = true ∧ u = t := by
  unfold innerRow; cases s.busy <;> cases admitted <;> cases here <;> simp

@[simp] theorem innerRow_idle {s : State} (u : State) (h : s.busy = false) : innerRow true true s u = .next u := by
  simp [innerRow, h]

theorem receiving_iff {s : State} : s.receiving = true ↔ s.busy = true ∧ (s.exchStep = 0#3 ∨ s.exchStep = 4#3) := by
  simp [State.receiving]

theorem receiveRow_next {admitted here : Bool} {s t : State} {r : State × RxYield} :
    receiveRow admitted here s r = .next t ↔
      admitted = true ∧ s.receiving = true ∧ here = true ∧ resume r = t := by
  unfold receiveRow; cases admitted <;> cases s.receiving <;> cases here <;> simp

@[simp] theorem receiveRow_here {s : State} (r : State × RxYield) (h : s.receiving = true) :
    receiveRow true true s r = .next (resume r) := by simp [receiveRow, h]

end Sys2Proof.Machine
end

