-- ==== Sys2Proof/Laws/Memory.lean ====
section
/-! SUPPORT. The capture buffer: every operation on it keeps its form, and what a read of one byte gives after an
append or a clear. -/

namespace Sys2Proof.Machine

@[simp] theorem admits_zero (bound : Bound) : bound.admits 0 = true := by cases bound <;> simp [Bound.admits]

/-- The buffer is full exactly at the bound. -/
theorem captureFull_iff (bound : Bound) (m : Memory) : captureFull bound m = true ↔ bound = .atMost m.capLen := by
  cases bound with
  | unbounded => simp [captureFull]
  | atMost n => simpa [captureFull] using eq_comm

theorem captureFull_false_iff (bound : Bound) (m : Memory) :
    captureFull bound m = false ↔ bound ≠ .atMost m.capLen := by
  rw [Ne, ← captureFull_iff]; simp

/-- Within its bound and not full, the buffer has room for one byte more. -/
theorem admits_succ (bound : Bound) (m : Memory) (h : bound.admits m.capLen = true)
    (hf : captureFull bound m = false) : bound.admits (m.capLen + 1) = true := by
  cases bound with
  | unbounded => rfl
  | atMost n => simp [Bound.admits, captureFull] at *; omega

@[simp] theorem Memory.empty_wf (bound : Bound) : Memory.empty.wf bound := by simp [Memory.wf]

theorem Memory.append_wf (bound : Bound) (b : Byte) (m : Memory) (h : m.wf bound)
    (hf : captureFull bound m = false) : (m.append b).wf bound :=
  ⟨by simp [h.1], admits_succ bound m h.2 hf⟩

/-- Reset memory has the form. -/
theorem reset_memory_wf (bound : Bound) : State.reset.mem.wf bound := Memory.empty_wf bound

theorem bufClear_wf (bound : Bound) (s : State) : (bufClear s).mem.wf bound := Memory.empty_wf bound

theorem bufAppend_wf (bound : Bound) (b : Byte) (s : State) (h : s.mem.wf bound)
    (hf : captureFull bound s.mem = false) : (bufAppend b s).mem.wf bound := Memory.append_wf bound b s.mem h hf

theorem receiveInit_wf (bound : Bound) (s : State) : (receiveInit s).mem.wf bound := Memory.empty_wf bound

theorem applyReset_wf (bound : Bound) (s : State) : (applyReset s).mem.wf bound := Memory.empty_wf bound

theorem takeFailure_wf (bound : Bound) (inReceive : Bool) (f : Failure) (data : List Byte) (s : State)
    (h : s.mem.wf bound) : (takeFailure inReceive f data s).mem.wf bound := by
  cases inReceive
  · exact h
  · exact Memory.empty_wf bound

theorem conclude_wf (bound : Bound) (v : Verdict) (s : State) (h : s.mem.wf bound) :
    (conclude v s).mem.wf bound := by simpa using h

theorem memRead_of_mem_eq (s t : State) (h : t.mem = s.mem) (i : Nat) : memRead t i = memRead s i := by
  unfold memRead; rw [h]

@[simp] theorem memRead_bufClear (s : State) (i : Nat) : memRead (bufClear s) i = none := by simp [memRead]

/-- An append shows at the old fill count. -/
theorem memRead_bufAppend_new (b : Byte) (s : State) (h : s.mem.capLen = s.mem.capBuf.length) :
    memRead (bufAppend b s) s.mem.capLen = some b := by simp [memRead, h]

/-- An append shows nowhere else. -/
theorem memRead_bufAppend_old (b : Byte) (s : State) (h : s.mem.capLen = s.mem.capBuf.length) (i : Nat)
    (hi : i ≠ s.mem.capLen) : memRead (bufAppend b s) i = memRead s i := by
  have h1 : i < s.mem.capLen + 1 ↔ i < s.mem.capLen := by omega
  simp only [memRead, bufAppend_mem, append_capLen, append_capBuf, h1]
  split
  · rename_i h2
    exact List.getElem?_append_left (h ▸ h2)
  · rfl

end Sys2Proof.Machine
end

