-- ==== Sys2Proof/Laws/Receive.lean ====
section
/-! SUPPORT. The receive machine: what one byte and one read can change, that they keep the buffer's form, and how
the loop goes on or ends (42_receive.md R68 to R70). -/

namespace Sys2Proof.Machine

/-! ### RX_BYTE -/

@[simp] theorem rxByte_start {s : State} (h : s.rxState = .waitingForStart) : rxByte START s = rxStartByte s := by
  simp [rxByte, h]

theorem rxByte_noise {s : State} {b : Byte} (h : s.rxState = .waitingForStart) (hb : b ≠ START) :
    rxByte b s = (s, .goOn) := by simp [rxByte, h, hb, rxNoiseByte]

@[simp] theorem rxByte_end {s : State} (h : s.rxState = .capturing) : rxByte END s = (s, .done s.mem.capBuf) := by
  simp [rxByte, h, rxEndByte]

theorem rxByte_body {s : State} {b : Byte} (h : s.rxState = .capturing) (hb : b ≠ END) :
    rxByte b s = rxBodyByte b s := by simp [rxByte, h, hb]

theorem rxByte_fits {s : State} {b : Byte} (h : s.rxState = .capturing) (hb : b ≠ END)
    (hf : captureFull s.cfg.maxBody s.mem = false) : rxByte b s = (bufAppend b s, .goOn) := by
  simp [rxByte_body h hb, rxBodyByte, hf]

theorem rxByte_full {s : State} {b : Byte} (h : s.rxState = .capturing) (hb : b ≠ END)
    (hf : captureFull s.cfg.maxBody s.mem = true) : rxByte b s = (s, .raised .frameTooLarge) := by
  simp [rxByte_body h hb, rxBodyByte, hf]

/-- Everything one byte can do. -/
theorem rxByte_cases (b : Byte) (s : State) :
    (s.rxState = .waitingForStart ∧ b = START ∧ rxByte b s = rxStartByte s) ∨
    (s.rxState = .waitingForStart ∧ b ≠ START ∧ rxByte b s = (s, .goOn)) ∨
    (s.rxState = .capturing ∧ b = END ∧ rxByte b s = (s, .done s.mem.capBuf)) ∨
    (s.rxState = .capturing ∧ b ≠ END ∧ captureFull s.cfg.maxBody s.mem = true ∧
      rxByte b s = (s, .raised .frameTooLarge)) ∨
    (s.rxState = .capturing ∧ b ≠ END ∧ captureFull s.cfg.maxBody s.mem = false ∧
      rxByte b s = (bufAppend b s, .goOn)) := by
  cases h : s.rxState
  · by_cases hb : b = START
    · subst hb; exact .inl ⟨rfl, rfl, rxByte_start h⟩
    · exact .inr (.inl ⟨rfl, hb, rxByte_noise h hb⟩)
  · by_cases hb : b = END
    · subst hb; exact .inr (.inr (.inl ⟨rfl, rfl, rxByte_end h⟩))
    · cases hf : captureFull s.cfg.maxBody s.mem
      · exact .inr (.inr (.inr (.inr ⟨rfl, hb, rfl, rxByte_fits h hb hf⟩)))
      · exact .inr (.inr (.inr (.inl ⟨rfl, hb, rfl, rxByte_full h hb hf⟩)))

/-- One byte writes `RX_STATE` and the buffer, and nothing else. -/
theorem rxByte_frame (b : Byte) (s : State) :
    (rxByte b s).1 = setMem (rxByte b s).1.mem (setRxState (rxByte b s).1.rxState s) := by
  obtain ⟨_, _, h⟩ | ⟨_, _, h⟩ | ⟨_, _, h⟩ | ⟨_, _, _, h⟩ | ⟨_, _, _, h⟩ := rxByte_cases b s <;> rw [h] <;> rfl

/-- One byte keeps the buffer's form, and an unstarted capture empty. -/
theorem rxByte_wf (b : Byte) (s : State) (hm : s.mem.wf s.cfg.maxBody)
    (hw : s.rxState = .waitingForStart → s.mem.capBuf = []) :
    (rxByte b s).1.mem.wf s.cfg.maxBody ∧
      ((rxByte b s).1.rxState = .waitingForStart → (rxByte b s).1.mem.capBuf = []) := by
  obtain ⟨_, _, h⟩ | ⟨_, _, h⟩ | ⟨_, _, h⟩ | ⟨_, _, _, h⟩ | ⟨hr, _, hf, h⟩ := rxByte_cases b s <;> rw [h]
  · exact ⟨Memory.empty_wf _, by simp [rxStartByte]⟩
  · exact ⟨hm, hw⟩
  · exact ⟨hm, hw⟩
  · exact ⟨hm, hw⟩
  · exact ⟨bufAppend_wf _ _ _ hm hf, by simp [hr]⟩

/-- While capturing, a byte that ends nothing is added at the end. -/
theorem rxByte_grow {b : Byte} {s : State} (hr : s.rxState = .capturing) (hc : (rxByte b s).2 = .goOn) :
    rxByte b s = (bufAppend b s, .goOn) := by
  obtain ⟨h', _⟩ | ⟨h', _⟩ | ⟨_, _, h⟩ | ⟨_, _, _, h⟩ | ⟨_, _, _, h⟩ := rxByte_cases b s
  · simp [hr] at h'
  · simp [hr] at h'
  · simp [h] at hc
  · simp [h] at hc
  · exact h

/-! ### The bytes of one read -/

@[simp] theorem rxBytes_nil (s : State) : rxBytes [] s = (s, .goOn) := rfl

theorem rxBytes_cons_continue {b : Byte} {bs : List Byte} {s : State} (h : (rxByte b s).2 = .goOn) :
    rxBytes (b :: bs) s = rxBytes bs (rxByte b s).1 := by
  rcases hr : rxByte b s with ⟨s', y⟩
  rw [hr] at h
  simp only at h
  subst h
  simp [rxBytes, hr]

theorem rxBytes_cons_end {b : Byte} {bs : List Byte} {s : State} (h : (rxByte b s).2 ≠ .goOn) :
    rxBytes (b :: bs) s = rxByte b s := by
  rcases hr : rxByte b s with ⟨s', y⟩
  rw [hr] at h
  cases y <;> simp_all [rxBytes]

theorem rxBytes_frame (bs : List Byte) (s : State) :
    (rxBytes bs s).1 = setMem (rxBytes bs s).1.mem (setRxState (rxBytes bs s).1.rxState s) := by
  induction bs generalizing s with
  | nil => rfl
  | cons b bs ih =>
    by_cases h : (rxByte b s).2 = .goOn
    · rw [rxBytes_cons_continue h]
      refine (ih _).trans ?_
      generalize (rxBytes bs (rxByte b s).1).1 = u
      rw [rxByte_frame]; rfl
    · rw [rxBytes_cons_end h]; exact rxByte_frame b s

theorem rxBytes_wf (bs : List Byte) (s : State) (hm : s.mem.wf s.cfg.maxBody)
    (hw : s.rxState = .waitingForStart → s.mem.capBuf = []) :
    (rxBytes bs s).1.mem.wf s.cfg.maxBody ∧
      ((rxBytes bs s).1.rxState = .waitingForStart → (rxBytes bs s).1.mem.capBuf = []) := by
  induction bs generalizing s with
  | nil => exact ⟨hm, hw⟩
  | cons b bs ih =>
    have hb := rxByte_wf b s hm hw
    have hcfg : (rxByte b s).1.cfg = s.cfg := by rw [rxByte_frame]; rfl
    by_cases h : (rxByte b s).2 = .goOn
    · rw [rxBytes_cons_continue h, ← hcfg]
      exact ih _ (hcfg ▸ hb.1) hb.2
    · rw [rxBytes_cons_end h]; exact hb

/-- While capturing, bytes that end nothing are all added at the end. -/
theorem rxBytes_grow {bs : List Byte} {s : State} (hr : s.rxState = .capturing)
    (hc : (rxBytes bs s).2 = .goOn) :
    (rxBytes bs s).1.rxState = .capturing ∧ (rxBytes bs s).1.mem.capBuf = s.mem.capBuf ++ bs ∧
      (rxBytes bs s).1.mem.capLen = s.mem.capLen + bs.length := by
  induction bs generalizing s with
  | nil => simp [hr]
  | cons b bs ih =>
    by_cases h : (rxByte b s).2 = .goOn
    · have hg := rxByte_grow hr h
      rw [rxBytes_cons_continue h, hg] at hc ⊢
      obtain ⟨h1, h2, h3⟩ := ih (s := bufAppend b s) hr hc
      exact ⟨h1, by simp [h2], by simp [h3]; omega⟩
    · rw [rxBytes_cons_end h] at hc; exact absurd hc h

/-! ### RX_READ -/

/-- Everything one read result can do: fail under the fatal policy, count as empty, or hand its bytes over. -/
theorem rxRead_cases (r : ReadResult) (s : State) :
    ((∃ e, r = .error e) ∧ s.cfg.readErrorPolicy = .fatal ∧ rxRead r s = (s, .raised .readError)) ∨
    ((r = .bytes [] ∨ (∃ e, r = .error e) ∧ s.cfg.readErrorPolicy = .tolerate) ∧ rxRead r s = rxEmpty s) ∨
    (∃ bs, r = .bytes bs ∧ bs ≠ [] ∧ rxRead r s = rxNonEmpty bs s) := by
  rcases r with bs | e
  · cases bs with
    | nil => exact .inr (.inl ⟨.inl rfl, rfl⟩)
    | cons b bs => exact .inr (.inr ⟨b :: bs, rfl, by simp, rfl⟩)
  · cases h : s.cfg.readErrorPolicy
    · exact .inl ⟨⟨e, rfl⟩, rfl, by simp [rxRead, h]⟩
    · exact .inr (.inl ⟨.inr ⟨⟨e, rfl⟩, rfl⟩, by simp [rxRead, h]⟩)

/-- The counter below its threshold: an empty read is counted. -/
theorem rxEmpty_continue {s : State} (h : s.emptyCnt ≠ 2#2) :
    rxEmpty s = (setEmptyCnt (s.emptyCnt + 1#2) s, .goOn) := by
  have h1 : emptyCntExpired (s.emptyCnt + 1#2) = false := by
    generalize s.emptyCnt = c at h
    revert h c; decide
  simp [rxEmpty, h1]

/-- The third empty read in a row. -/
theorem rxEmpty_expired {s : State} (h : s.emptyCnt = 2#2) :
    rxEmpty s = (setEmptyCnt 3#2 s, .raised .receiveTimeout) := by
  unfold rxEmpty; rw [h]; rfl

theorem rxRead_frame (r : ReadResult) (s : State) :
    (rxRead r s).1 =
      setEmptyCnt (rxRead r s).1.emptyCnt (setMem (rxRead r s).1.mem (setRxState (rxRead r s).1.rxState s)) := by
  obtain ⟨_, _, h⟩ | ⟨_, h⟩ | ⟨bs, _, _, h⟩ := rxRead_cases r s <;> rw [h]
  · rfl
  · rfl
  · unfold rxNonEmpty
    rw [rxBytes_frame]; rfl

theorem rxRead_wf (r : ReadResult) (s : State) (hm : s.mem.wf s.cfg.maxBody)
    (hw : s.rxState = .waitingForStart → s.mem.capBuf = []) :
    (rxRead r s).1.mem.wf s.cfg.maxBody ∧
      ((rxRead r s).1.rxState = .waitingForStart → (rxRead r s).1.mem.capBuf = []) := by
  obtain ⟨_, _, h⟩ | ⟨_, h⟩ | ⟨bs, _, _, h⟩ := rxRead_cases r s <;> rw [h]
  · exact ⟨hm, hw⟩
  · exact ⟨hm, hw⟩
  · exact rxBytes_wf bs (setEmptyCnt 0#2 s) hm hw

/-- A receive that goes on after a read has not used up its empty reads. -/
theorem rxRead_emptyCnt {r : ReadResult} {s : State} (hc : (rxRead r s).2 = .goOn) :
    (rxRead r s).1.emptyCnt ≠ 3#2 := by
  obtain ⟨_, _, h⟩ | ⟨_, h⟩ | ⟨bs, _, _, h⟩ := rxRead_cases r s <;> rw [h] at hc ⊢
  · simp at hc
  · by_cases h2 : s.emptyCnt = 2#2
    · simp [rxEmpty_expired h2] at hc
    · rw [rxEmpty_continue h2]
      generalize s.emptyCnt = c at h2
      simp only [setEmptyCnt_emptyCnt]
      revert h2 c; decide
  · unfold rxNonEmpty; rw [rxBytes_frame]; simp

/-- While capturing, a read that ends nothing only adds to the end of the buffer. -/
theorem rxRead_grow {r : ReadResult} {s : State} (hr : s.rxState = .capturing) (hc : (rxRead r s).2 = .goOn) :
    (rxRead r s).1.rxState = .capturing ∧ ∃ more, (rxRead r s).1.mem.capBuf = s.mem.capBuf ++ more ∧
      (rxRead r s).1.mem.capLen = s.mem.capLen + more.length := by
  obtain ⟨_, _, h⟩ | ⟨_, h⟩ | ⟨bs, _, _, h⟩ := rxRead_cases r s <;> rw [h] at hc ⊢
  · simp at hc
  · exact ⟨hr, [], by simp [rxEmpty], by simp [rxEmpty]⟩
  · obtain ⟨h1, h2, h3⟩ := rxBytes_grow (s := setEmptyCnt 0#2 s) hr hc
    exact ⟨h1, bs, h2, h3⟩

/-! ### The loop -/

@[simp] theorem resume_continue (s : State) : resume (s, .goOn) = s := rfl

@[simp] theorem resume_raised (f : Failure) (s : State) : resume (s, .raised f) = takeFailure true f [] s := rfl

theorem resume_done_receive {s : State} (body : List Byte) (h : s.exchStep ≠ 4#3) :
    resume (s, .done body) = conclude (.ok body) (receiveInit s) := by simp [resume, h]

theorem resume_done_exchange {s : State} (body : List Byte) (h : s.exchStep = 4#3) :
    resume (s, .done body) = exchangeTail body (receiveInit s) := by simp [resume, h]

end Sys2Proof.Machine
end

