-- ==== Sys2Proof/Laws/Transport.lean ====
section
/-! SUPPORT. What the transport's three calls give and leave (20_memory.md R30 to R32). -/

namespace Sys2Proof.Machine

/-- A read hands over at most `cap` bytes. -/
theorem splitRead_within (cap : Nat) (r : ReadResult) : (splitRead cap r).1.within cap = true := by
  cases r <;> simp [splitRead, ReadResult.within]

/-- A result that fits is handed over whole. -/
theorem splitRead_of_within {cap : Nat} {r : ReadResult} (h : r.within cap = true) : splitRead cap r = (r, []) := by
  cases r with
  | error e => rfl
  | bytes bs =>
    have h' : bs.length ≤ cap := by simpa [ReadResult.within] using h
    simp [splitRead, h', List.take_of_length_le h']

theorem read_within (cap : Nat) (t : Transport) : (t.read cap).1.within cap = true := by
  unfold Transport.read; split <;> exact splitRead_within _ _

/-- A scripted result that fits is the answer, and the rest of the script stays. -/
theorem read_scripted {cap : Nat} {t : Transport} {r : ReadResult} {rest : List ReadResult}
    (ht : t.reads = r :: rest) (h : r.within cap = true) : t.read cap = (r, { t with reads := rest }) := by
  simp [Transport.read, ht, splitRead_of_within h]

@[simp] theorem read_log (cap : Nat) (t : Transport) : (t.read cap).2.log = t.log := by
  unfold Transport.read; split <;> rfl

@[simp] theorem read_opens (cap : Nat) (t : Transport) : (t.read cap).2.opens = t.opens := by
  unfold Transport.read; split <;> rfl

@[simp] theorem read_writes (cap : Nat) (t : Transport) : (t.read cap).2.writes = t.writes := by
  unfold Transport.read; split <;> rfl

@[simp] theorem write_log (len : Nat) (t : Transport) : (t.write len).2.log = t.log := by
  unfold Transport.write; split <;> rfl

@[simp] theorem write_reads (len : Nat) (t : Transport) : (t.write len).2.reads = t.reads := by
  unfold Transport.write; split <;> rfl

theorem write_scripted {len : Nat} {t : Transport} {w : WriteResult} {ws : List WriteResult} (ht : t.writes = w :: ws) :
    t.write len = (clipWrite len w, { t with writes := ws }) := by simp [Transport.write, ht]

@[simp] theorem clipWrite_full (len : Nat) : clipWrite len (.written len) = .written len := by simp [clipWrite]

@[simp] theorem openNext_log (t : Transport) : t.openNext.2.log = t.log := by
  unfold Transport.openNext; split <;> rfl

@[simp] theorem settle_log (a : OpenArgs) (r : OpenResult) (t : Transport) : (t.settle a r).log = t.log := by
  cases r <;> rfl

@[simp] theorem settle_opens (a : OpenArgs) (r : OpenResult) (t : Transport) : (t.settle a r).opens = t.opens := by
  cases r <;> rfl

@[simp] theorem settle_reads (a : OpenArgs) (r : OpenResult) (t : Transport) : (t.settle a r).reads = t.reads := by
  cases r <;> rfl

/-- The pair `streamRead` answers. -/
theorem streamRead_eq (s : State) : streamRead s = ((streamRead s).1, (s.line.read s.cfg.readCapacity).1) := rfl

/-- A read of a scripted result that fits: the result, and the machine with it taken from the queue. -/
theorem streamRead_scripted {s : State} {r : ReadResult} {rest : List ReadResult} (ht : s.line.reads = r :: rest)
    (h : r.within s.cfg.readCapacity = true) :
    streamRead s = (setLine (Transport.note (.read s.cfg.readCapacity r) { s.line with reads := rest }) s, r) := by
  simp [streamRead, read_scripted ht h]

theorem streamOpen_eq (a : OpenArgs) (s : State) :
    streamOpen a s = (setLine (streamOpen a s).1.line s, s.line.openNext.1) := rfl

end Sys2Proof.Machine
end

