-- ==== Sys2Proof/Laws/Exchange.lean ====
section
/-! SUPPORT. OPEN and EXCHANGE: everything the head of an EXCHANGE, its tail and an answered OPEN can leave
(43_exchange.md R75, R76), and how a receive ends. -/

namespace Sys2Proof.Machine

open Sys2Proof.Safety

/-! ### What an outcome can be -/

/-- A verdict whose data is empty unless it is `ok` or `ChecksumMismatch`. -/
def Verdict.tidy : Verdict → Prop
  | .ok _ => True
  | .fail f d => f ≠ .checksumMismatch → d = []

@[simp] theorem tidy_ok (d : List Byte) : (Verdict.ok d).tidy := trivial

@[simp] theorem tidy_fail_nil (f : Failure) : (Verdict.fail f []).tidy := fun _ => rfl

theorem appendCrc_tidy (p : List Byte) : (appendCrc p).tidy := by
  cases h : appendCrc p with
  | ok d => trivial
  | fail f d => exact fun _ => (appendCrc_fail h).2.2

theorem verifyCrc_tidy (x : List Byte) : (verifyCrc x).tidy := by
  cases h : verifyCrc x with
  | ok d => trivial
  | fail f d => exact verifyCrc_fail h

theorem encodeFrame_tidy (x : List Byte) : (encodeFrame x).tidy := by
  cases h : encodeFrame x with
  | ok d => trivial
  | fail f d => exact fun _ => (encodeFrame_fail h).2.2

theorem decodeFrame_tidy (b : List Byte) : (decodeFrame b).tidy := by
  cases h : decodeFrame b with
  | ok d => trivial
  | fail f d => exact fun _ => decodeFrame_fail h

theorem decodeReply_tidy (b : List Byte) : (decodeReply b).tidy := by
  unfold decodeReply
  cases h : decodeFrame b with
  | ok y => exact verifyCrc_tidy y
  | fail f d => exact fun _ => decodeFrame_fail h

/-- A tidy verdict goes out as a legal outcome. -/
theorem tidy_legal {v : Verdict} (h : v.tidy) : responseLegal v.response := by
  cases v with
  | ok d => simp [responseLegal]
  | fail f d => cases f <;> simp_all [responseLegal, Failure.code, Verdict.tidy]

/-! ### EXCHANGE -/

/-- The request of EXCHANGE is empty, or it encodes to a frame. -/
theorem encodeRequest_ok {q : List Byte} (h : q ≠ []) :
    encodeRequest q = .ok (wrap (escape (q ++ crc16LE q))) := by
  simp [encodeRequest, appendCrc_ok h, encodeFrame]
  simp [h]

/-- The head of an EXCHANGE with a request: its registers written, then the one write. -/
theorem exchangeHead_send {q : List Byte} (h : q ≠ []) (s : State) :
    exchangeHead q s =
      exchangeSend (wrap (escape (q ++ crc16LE q)))
        (setInter { s.inter with x := q ++ crc16LE q } (setExchStep 2#3 (computeCrc q (setExchStep 1#3 s)))) := by
  have hx : (q ++ crc16LE q) ≠ [] := by simp [h]
  simp [exchangeHead, appendCrc_ok h, exchangeEncode, encodeFrame_ok hx]

/-- The head of an EXCHANGE without a request. -/
theorem exchangeHead_nil (s : State) : exchangeHead [] s = takeFailure false .emptyInput [] (setExchStep 1#3 s) := rfl

theorem exchangeWritten_full (len : Nat) (s : State) :
    exchangeWritten len (s, .written len) = receiveInit (setExchStep 4#3 s) := by simp [exchangeWritten]

theorem exchangeWritten_short {len : Nat} {w : WriteResult} (h : w ≠ .written len) (s : State) :
    exchangeWritten len (s, w) = takeFailure false .writeError [] s := by simp [exchangeWritten, h]

/-- Everything the head of an EXCHANGE can leave. -/
theorem exchangeHead_cases (q : List Byte) (s : State) :
    (exchangeHead q s).cfg = s.cfg ∧ (exchangeHead q s).opened = s.opened ∧
    (exchangeHead q s).caller = s.caller ∧ (exchangeHead q s).out = s.out ∧
    (exchangeHead q s).escPend = s.escPend ∧
    ((q = [] ∧ exchangeHead q s = takeFailure false .emptyInput [] (setExchStep 1#3 s)) ∨
     (q ≠ [] ∧ ∃ frame w, encodeRequest q = .ok frame ∧
        (exchangeHead q s).line = ((s.line.write frame.length).2).note (.wrote frame w) ∧
        w = (s.line.write frame.length).1 ∧
        ((w = .written frame.length ∧ (exchangeHead q s).busy = s.busy ∧ (exchangeHead q s).exchStep = 4#3 ∧
            receiveAtRest (exchangeHead q s) ∧ (exchangeHead q s).rsp = s.rsp) ∨
         (w ≠ .written frame.length ∧ (exchangeHead q s).busy = false ∧ (exchangeHead q s).exchStep = 0#3 ∧
            (exchangeHead q s).rsp = (Verdict.fail .writeError []).response :: s.rsp ∧
            (exchangeHead q s).rxState = s.rxState ∧ (exchangeHead q s).emptyCnt = s.emptyCnt ∧
            (exchangeHead q s).mem = s.mem)))) := by
  by_cases h : q = []
  · subst h
    refine ⟨rfl, rfl, rfl, rfl, rfl, .inl ⟨rfl, rfl⟩⟩
  · rw [exchangeHead_send h]
    unfold exchangeSend
    generalize hs : setInter _ _ = s'
    have e : s'.cfg = s.cfg ∧ s'.opened = s.opened ∧ s'.caller = s.caller ∧ s'.out = s.out ∧
        s'.escPend = s.escPend ∧ s'.line = s.line ∧ s'.busy = s.busy ∧ s'.rsp = s.rsp ∧ s'.rxState = s.rxState ∧
        s'.emptyCnt = s.emptyCnt ∧ s'.mem = s.mem := by subst hs; simp
    obtain ⟨e1, e2, e3, e4, e5, e6, e7, e8, e9, e10, e11⟩ := e
    rw [show ∀ f, streamWrite f s' = ((streamWrite f s').1, (s'.line.write f.length).1) from fun _ => rfl]
    by_cases hw : (s'.line.write (wrap (escape (q ++ crc16LE q))).length).1 =
        .written (wrap (escape (q ++ crc16LE q))).length
    · rw [hw, exchangeWritten_full]
      rw [e6] at hw
      refine ⟨by simp [e1], by simp [e2], by simp [e3], by simp [e4], by simp [e5],
        .inr ⟨h, _, _, encodeRequest_ok h, ?_, rfl, .inl ⟨hw, by simp [e7], by simp, ?_, by simp [e8]⟩⟩⟩
      · simp [e6]
      · exact ⟨rfl, rfl, rfl⟩
    · rw [exchangeWritten_short hw]
      rw [e6] at hw
      exact ⟨by simp [e1], by simp [e2], by simp [e3], by simp [e4], by simp [e5],
        .inr ⟨h, _, _, encodeRequest_ok h, by simp [e6], rfl, .inr ⟨hw, by simp, by simp, by simp [e8],
          by simp [e9], by simp [e10], by simp [e11]⟩⟩⟩

/-- Everything the tail of an EXCHANGE leaves. -/
theorem exchangeTail_effect (b : List Byte) (s : State) :
    (exchangeTail b s).rsp = (decodeReply b).response :: s.rsp ∧ (exchangeTail b s).busy = false ∧
    (exchangeTail b s).exchStep = 0#3 ∧ (exchangeTail b s).cfg = s.cfg ∧ (exchangeTail b s).opened = s.opened ∧
    (exchangeTail b s).line = s.line ∧ (exchangeTail b s).caller = s.caller ∧ (exchangeTail b s).mem = s.mem ∧
    (exchangeTail b s).rxState = s.rxState ∧ (exchangeTail b s).emptyCnt = s.emptyCnt ∧
    (exchangeTail b s).out = s.out ∧ (exchangeTail b s).inter.x = s.inter.x ∧
    (exchangeTail b s).inter.f = s.inter.f ∧ (exchangeTail b s).inter.b = b := by
  unfold exchangeTail decodeReply
  cases decodeFrame b with
  | fail f d => simp
  | ok y =>
    cases hv : verifyCrc y with
    | fail f d => simp [exchangeVerify, hv]
    | ok p => simp [exchangeVerify, hv]

/-- The head of an EXCHANGE leaves a walk of decoder rows as it is. -/
@[simp] theorem exchangeHead_walking (q : List Byte) (s : State) : (exchangeHead q s).walking = s.walking := by
  by_cases h : q = []
  · subst h; rfl
  · rw [exchangeHead_send h]
    unfold exchangeSend
    generalize hs : setInter _ _ = s'
    rw [show ∀ f, streamWrite f s' = ((streamWrite f s').1, (s'.line.write f.length).1) from fun _ => rfl]
    have hw : s'.walking = s.walking := by subst hs; simp
    unfold exchangeWritten
    dsimp only
    split <;> simp [hw]

/-- What the tail of an EXCHANGE leaves of `ESC_PEND` and of a walk of decoder rows. -/
theorem exchangeTail_walk (b : List Byte) (s : State) :
    (exchangeTail b s).walking = (s.walking && b.isEmpty) ∧
    (exchangeTail b s).escPend = (if b.isEmpty then s.escPend else (decodeWalk b).escPend) := by
  unfold exchangeTail
  cases decodeFrame b with
  | fail f d => cases b <;> simp
  | ok y =>
    cases hv : verifyCrc y <;> cases b <;> simp [exchangeVerify, hv]

/-! ### The end of a receive -/

/-- How a receive ends: the verdict of RECEIVE_FRAME, or of EXCHANGE's steps 5 and 6 on the body. -/
def endVerdict (s : State) : RxYield → Verdict
  | .goOn => .ok []
  | .raised f => .fail f []
  | .done body => if s.exchStep = 4#3 then decodeReply body else .ok body

theorem endVerdict_tidy (s : State) (y : RxYield) : (endVerdict s y).tidy := by
  cases y with
  | goOn => trivial
  | raised f => exact fun _ => rfl
  | done body =>
    simp only [endVerdict]
    split
    · exact decodeReply_tidy body
    · trivial

/-- Everything the end of a receive leaves. -/
theorem resume_effect {s : State} {y : RxYield} (he : s.exchStep = 0#3 ∨ s.exchStep = 4#3) (hy : y ≠ .goOn) :
    (resume (s, y)).rsp = (endVerdict s y).response :: s.rsp ∧ (resume (s, y)).busy = false ∧
    (resume (s, y)).exchStep = 0#3 ∧ (resume (s, y)).cfg = s.cfg ∧ (resume (s, y)).opened = s.opened ∧
    (resume (s, y)).line = s.line ∧ (resume (s, y)).caller = s.caller ∧ (resume (s, y)).out = s.out ∧
    receiveAtRest (resume (s, y)) := by
  cases y with
  | goOn => exact absurd rfl hy
  | raised f => simp [endVerdict, receiveAtRest, Memory.empty]
  | done body =>
    rcases he with he | he
    · have h4 : s.exchStep ≠ 4#3 := by rw [he]; decide
      rw [resume_done_receive _ h4]
      simp [endVerdict, receiveAtRest, Memory.empty, he]
    · rw [resume_done_exchange _ he]
      obtain ⟨h1, h2, h3, h4, h5, h6, h7, h8, h9, h10, h11, _⟩ := exchangeTail_effect body (receiveInit s)
      exact ⟨by simpa [endVerdict, he] using h1, h2, h3, h4, h5, h6, h7, h11, h9, h10, h8⟩

/-! ### OPEN -/

/-- Everything an answered OPEN leaves. -/
theorem openAnswered_cases (a : OpenArgs) (s : State) :
    (s.line.openNext.1 = .handle ∧
      openAnswered (streamOpen a s) = conclude (.ok []) (setOpened true (streamOpen a s).1)) ∨
    (∃ e, s.line.openNext.1 = .error e ∧
      openAnswered (streamOpen a s) = takeFailure false .openError [] (streamOpen a s).1) := by
  rw [streamOpen_eq]
  cases h : s.line.openNext.1 with
  | handle => exact .inl ⟨rfl, rfl⟩
  | error e => exact .inr ⟨e, rfl, rfl⟩

end Sys2Proof.Machine
end

