-- ==== Sys2Proof/Laws/Exec.lean ====
section
/-! SUPPORT. Everything `exec` can do when it answers a next state, said once (`exec_effect`); later facts about
`exec` are cases of it. -/

namespace Sys2Proof.Machine

open Sys2Proof.Safety

/-- The next states of a row, by shape. -/
inductive Effect (i : Instr) (s : State) : State → Prop where
  /-- an operation that ends within its step, with the registers it may have written before its outcome -/
  | concludes (v : Verdict) (u : State) (idle : s.busy = false) (tidy : v.tidy)
      (writes : u = setCrcAcc u.crcAcc (setEscPend u.escPend (setWalking u.walking (setBusy u.busy s))))
      (notExchange : ∀ q, i = .exchange q → s.opened = false ∧ v = .fail .notOpen []) : Effect i s (conclude v u)
  /-- a stage, symbol or decoder row on its own -/
  | quiet (bs : List Byte) (p w : Bool) (idle : s.busy = false) :
      Effect i s (setOut bs (setEscPend p (setWalking w s)))
  /-- a byte or a read of a running receive -/
  | receives (m : Memory) (st : RxState) (n : BitVec 2) (y : RxYield) (running : s.receiving = true)
      (grows : s.rxState = .capturing → y = .goOn →
        st = .capturing ∧ ∃ more, m.capBuf = s.mem.capBuf ++ more ∧ m.capLen = s.mem.capLen + more.length)
      (wf : s.mem.wf s.cfg.maxBody → (s.rxState = .waitingForStart → s.mem.capBuf = []) →
        m.wf s.cfg.maxBody ∧ (st = .waitingForStart → m.capBuf = []))
      (counts : s.emptyCnt ≠ 3#2 → y = .goOn → n ≠ 3#2) :
      Effect i s (resume (setEmptyCnt n (setMem m (setRxState st s)), y))
  /-- RECEIVE_FRAME begins -/
  | begins (row : i = .receiveFrame) (idle : s.busy = false) (open' : s.opened = true) :
      Effect i s (receiveInit (setExchStep 0#3 (setBusy true s)))
  /-- EXCHANGE begins -/
  | exchanges (q : List Byte) (row : i = .exchange q) (idle : s.busy = false) (open' : s.opened = true) :
      Effect i s (exchangeHead q (setBusy true s))
  /-- OPEN -/
  | opens (a : OpenArgs) (row : i = .openStream a) (idle : s.busy = false) (closed : s.opened = false) :
      Effect i s (openAnswered (streamOpen a (setBusy true s)))

/-- The registers only, as the rows of a receive leave them. -/
theorem setRx_self (s : State) : setEmptyCnt s.emptyCnt (setMem s.mem (setRxState s.rxState s)) = s := rfl

theorem exec_effect {i : Instr} {s t : State} (h : exec i s = .next t) : Effect i s t := by
  cases i with
  | appendCrc p =>
    simp only [exec, execAppendCrc, acceptBytes_next] at h
    obtain ⟨hb, _, h⟩ := h
    cases h
    exact .concludes _ _ hb (appendCrc_tidy p) (by unfold computeCrc; split <;> rfl) (by simp)
  | encodeFrame x =>
    simp only [exec, execEncodeFrame, acceptBytes_next] at h
    obtain ⟨hb, _, h⟩ := h
    cases h
    exact .concludes _ _ hb (encodeFrame_tidy x) rfl (by simp)
  | decodeFrame b =>
    simp only [exec, execDecodeFrame, acceptBytes_next] at h
    obtain ⟨hb, _, h⟩ := h
    cases h
    exact .concludes _ _ hb (decodeFrame_tidy b) (by unfold walkBody; split <;> rfl) (by simp)
  | verifyCrc x =>
    simp only [exec, execVerifyCrc, acceptBytes_next] at h
    obtain ⟨hb, _, h⟩ := h
    cases h
    exact .concludes _ _ hb (verifyCrc_tidy x) (by unfold computeCrc; split <;> rfl) (by simp)
  | receiveFrame =>
    simp only [exec, execReceiveFrame, accept_next] at h
    obtain ⟨hb, h⟩ := h
    split at h <;> cases h
    · exact .begins rfl hb ‹_›
    · exact .concludes (.fail .notOpen []) _ hb (tidy_fail_nil _) rfl (by simp)
  | exchange q =>
    simp only [exec, execExchange, acceptBytes_next] at h
    obtain ⟨hb, _, h⟩ := h
    split at h <;> cases h
    · exact .exchanges q rfl hb ‹_›
    · exact .concludes (.fail .notOpen []) _ hb (tidy_fail_nil _) rfl (by simp_all)
  | openStream a =>
    simp only [exec, execOpenStream, accept_next] at h
    obtain ⟨hb, h⟩ := h
    split at h
    · cases h
    · cases h
      exact .opens a rfl hb (by simp_all)
  | reservedOp7 =>
    simp only [exec, execReservedOp7, accept_next] at h
    obtain ⟨hb, h⟩ := h
    cases h
    exact .concludes (.fail .illegalOp []) _ hb (tidy_fail_nil _) rfl (by simp)
  | rxRead r =>
    simp only [exec, execRxRead, receiveRow_next] at h
    obtain ⟨_, hr, _, rfl⟩ := h
    rw [show rxRead r s = ((rxRead r s).1, (rxRead r s).2) from rfl, rxRead_frame]
    exact .receives _ _ _ _ hr rxRead_grow (rxRead_wf r s) fun _ => rxRead_emptyCnt
  | rxStart =>
    simp only [exec, execRxStart, receiveRow_next] at h
    obtain ⟨_, hr, hw, rfl⟩ := h
    exact .receives Memory.empty .capturing s.emptyCnt .goOn hr (by simp_all)
      (fun _ _ => ⟨Memory.empty_wf _, by simp⟩) fun hn _ => hn
  | rxNoise b =>
    simp only [exec, execRxNoise, receiveRow_next] at h
    obtain ⟨_, hr, hw, rfl⟩ := h
    exact .receives s.mem s.rxState s.emptyCnt .goOn hr (by simp_all) (fun hm hw => ⟨hm, hw⟩) fun hn _ => hn
  | rxEnd =>
    simp only [exec, execRxEnd, receiveRow_next] at h
    obtain ⟨_, hr, hw, rfl⟩ := h
    exact .receives s.mem s.rxState s.emptyCnt (.done s.mem.capBuf) hr (by simp) (fun hm hw => ⟨hm, hw⟩) fun hn _ => hn
  | rxBody b =>
    simp only [exec, execRxBody, receiveRow_next] at h
    obtain ⟨ha, hr, hw, rfl⟩ := h
    have hc : s.rxState = .capturing := by simpa using hw
    have hb : b ≠ END := by simpa using ha
    rw [← rxByte_body hc hb]
    rw [show rxByte b s = ((rxByte b s).1, (rxByte b s).2) from rfl, rxByte_frame]
    refine .receives _ _ s.emptyCnt _ hr ?_ (rxByte_wf b s) fun hn _ => hn
    intro _ hy
    rw [rxByte_grow hc hy]
    exact ⟨hc, [b], rfl, rfl⟩
  | escape x =>
    simp only [exec, execEscape, innerRow_next] at h
    obtain ⟨hb, _, _, rfl⟩ := h
    exact .quiet _ s.escPend s.walking hb
  | wrap e =>
    simp only [exec, execWrap, innerRow_next] at h
    obtain ⟨hb, _, _, rfl⟩ := h
    exact .quiet _ s.escPend s.walking hb
  | stripDelims f =>
    simp only [exec, execStripDelims, innerRow_next] at h
    obtain ⟨hb, _, _, rfl⟩ := h
    exact .quiet _ s.escPend s.walking hb
  | decEsc =>
    simp only [exec, execDecEsc, innerRow_next] at h
    obtain ⟨hb, _, _, rfl⟩ := h
    exact .quiet _ _ _ hb
  | decLiteral c =>
    simp only [exec, execDecLiteral, innerRow_next] at h
    obtain ⟨hb, _, _, rfl⟩ := h
    exact .quiet _ _ _ hb
  | decEscaped c =>
    simp only [exec, execDecEscaped, innerRow_next] at h
    obtain ⟨hb, _, _, rfl⟩ := h
    exact .quiet _ _ _ hb
  | decTruncated =>
    simp only [exec, execDecTruncated, innerRow_next] at h
    obtain ⟨hb, _, _, rfl⟩ := h
    exact .concludes (.fail .truncatedEscape []) _ hb (tidy_fail_nil _) rfl (by simp)
  | pairStart =>
    simp only [exec, execPairStart, innerRow_next] at h
    obtain ⟨hb, _, _, rfl⟩ := h
    exact .quiet _ s.escPend s.walking hb
  | pairEnd =>
    simp only [exec, execPairEnd, innerRow_next] at h
    obtain ⟨hb, _, _, rfl⟩ := h
    exact .quiet _ s.escPend s.walking hb
  | pairEsc =>
    simp only [exec, execPairEsc, innerRow_next] at h
    obtain ⟨hb, _, _, rfl⟩ := h
    exact .quiet _ s.escPend s.walking hb
  | literal b =>
    simp only [exec, execLiteral, innerRow_next] at h
    obtain ⟨hb, _, _, rfl⟩ := h
    exact .quiet _ s.escPend s.walking hb
  | frameStart =>
    simp only [exec, execFrameStart, innerRow_next] at h
    obtain ⟨hb, _, _, rfl⟩ := h
    exact .quiet _ s.escPend s.walking hb
  | frameEnd =>
    simp only [exec, execFrameEnd, innerRow_next] at h
    obtain ⟨hb, _, _, rfl⟩ := h
    exact .quiet _ s.escPend s.walking hb

/-! ### What a step does -/

/-- Everything a step that answers a next state can have done. -/
theorem step_cases {s t : State} (h : step s = .next t) :
    (∃ rest, s.caller = .reset :: rest ∧ t = applyReset (setCaller rest s)) ∨
    (∃ i rest, exec i (setCaller rest s) = .next t) ∨
    (s.busy = true ∧ ∃ rest, exec (.rxRead (streamRead (setCaller rest s)).2) (streamRead (setCaller rest s)).1 =
      .next t) ∨
    (s.busy = false ∧ ∃ rest, t = setCaller rest s) := by
  have hoff : ∀ e rest, runOffered e (setCaller rest s) = .next t → ∃ i rest, exec i (setCaller rest s) = .next t := by
    intro e rest h
    unfold runOffered at h
    split at h
    · exact ⟨_, rest, h⟩
    · cases h
  unfold step fetch fetchOwn at h
  split at h <;> rename_i hf <;> (repeat' split at hf) <;> cases hf
  all_goals first
    | exact .inr (.inl (hoff _ _ h))
    | (cases h; exact .inl ⟨_, ‹_›, rfl⟩)
    | (cases h; exact .inr (.inr (.inr ⟨by simp_all, _, rfl⟩)))
    | exact .inr (.inr (.inl ⟨‹_›, s.caller, h⟩))
    | exact .inr (.inr (.inl ⟨‹_›, _, h⟩))

end Sys2Proof.Machine
end

