-- ==== Sys2Proof/Laws/PerInstr.lean ====
section
/-! SUPPORT. For every row: the word its encoding has in the opcode table carries the row's fixed bits and fits the
width the table gives the format. -/

namespace Sys2Proof.Laws.EncodingFits

/-- The word has the row's fixed bits and no bit beyond the format's width. -/
def Statement (i : Instr) : Prop :=
  i.row.matches (encode i).tableWord.2 = true ∧ (encode i).tableWord.2 < 2 ^ (encode i).tableWord.1

theorem appendCrc (p : List Byte) : Statement (.appendCrc p) := by
  simp [Statement, Instr.row, Row.matches, encode, Encoded.tableWord]

theorem encodeFrame (x : List Byte) : Statement (.encodeFrame x) := by
  simp [Statement, Instr.row, Row.matches, encode, Encoded.tableWord]

theorem decodeFrame (b : List Byte) : Statement (.decodeFrame b) := by
  simp [Statement, Instr.row, Row.matches, encode, Encoded.tableWord]

theorem verifyCrc (x : List Byte) : Statement (.verifyCrc x) := by
  simp [Statement, Instr.row, Row.matches, encode, Encoded.tableWord]

theorem receiveFrame : Statement .receiveFrame := ⟨rfl, by decide⟩

theorem exchange (q : List Byte) : Statement (.exchange q) := by
  simp [Statement, Instr.row, Row.matches, encode, Encoded.tableWord]

theorem openStream (a : OpenArgs) : Statement (.openStream a) := by
  simp [Statement, Instr.row, Row.matches, encode, Encoded.tableWord]

theorem reservedOp7 : Statement .reservedOp7 := ⟨rfl, by decide⟩

theorem escape (x : List Byte) : Statement (.escape x) := by
  simp [Statement, Instr.row, Row.matches, encode, Encoded.tableWord]

theorem wrap (e : List Byte) : Statement (.wrap e) := by
  simp [Statement, Instr.row, Row.matches, encode, Encoded.tableWord]

theorem stripDelims (f : List Byte) : Statement (.stripDelims f) := by
  simp [Statement, Instr.row, Row.matches, encode, Encoded.tableWord]

theorem rxRead (r : ReadResult) : Statement (.rxRead r) := by
  simp [Statement, Instr.row, Row.matches, encode, Encoded.tableWord]

theorem rxStart : Statement .rxStart := ⟨rfl, by decide⟩

theorem rxNoise (b : Byte) : Statement (.rxNoise b) := ⟨by simp [Instr.row, Row.matches], b.isLt⟩

theorem rxEnd : Statement .rxEnd := ⟨rfl, by decide⟩

theorem rxBody (b : Byte) : Statement (.rxBody b) := ⟨by simp [Instr.row, Row.matches], b.isLt⟩

theorem decEsc : Statement .decEsc := ⟨rfl, by decide⟩

theorem decLiteral (c : Byte) : Statement (.decLiteral c) := ⟨by simp [Instr.row, Row.matches], c.isLt⟩

theorem decEscaped (c : Byte) : Statement (.decEscaped c) := ⟨by simp [Instr.row, Row.matches], c.isLt⟩

theorem decTruncated : Statement .decTruncated := ⟨rfl, by decide⟩

theorem pairStart : Statement .pairStart := ⟨rfl, by decide⟩

theorem pairEnd : Statement .pairEnd := ⟨rfl, by decide⟩

theorem pairEsc : Statement .pairEsc := ⟨rfl, by decide⟩

theorem literal (b : Byte) : Statement (.literal b) := by
  have h := b.isLt
  simp [Statement, Instr.row, Row.matches, encode, Encoded.tableWord, bytesToNat]; omega

theorem frameStart : Statement .frameStart := ⟨rfl, by decide⟩

theorem frameEnd : Statement .frameEnd := ⟨rfl, by decide⟩

end Sys2Proof.Laws.EncodingFits
end

