-- ==== Sys2Proof/Laws/Run.lean ====
section
/-! SUPPORT. Runs: one step more, the step that begins an operation, the step that reads, and which registers the
receive loop depends on. -/

namespace Sys2Proof.Machine

open Sys2Proof.Safety

/-! ### Steps -/

theorem core_run_succ (M : Host.Core) {n : Nat} {s u : M.State} (h : M.step s = .next u) :
    M.run (n + 1) s = M.run n u := by rw [Host.Core.run, h]

theorem runsTo_zero (s : State) : runsTo 0 s s := rfl

/-- A step in front of a run. -/
theorem runsTo_succ {n : Nat} {s u t : State} (h : step s = .next u) (hr : runsTo n u t) : runsTo (n + 1) s t :=
  (core_run_succ Sys2Proof.core h).trans hr

@[simp] theorem contextOf_setCaller (v : List CallerEvent) (s : State) :
    contextOf (setCaller v s) = contextOf s := rfl

/-- The step that takes a command. -/
theorem step_call {s : State} {c : Command} {rest : List CallerEvent} {i : Instr} (hb : s.busy = false)
    (hc : s.caller = .call c :: rest) (hd : decode (contextOf s) (.cmd c) = .instr i) :
    step s = exec i (setCaller rest s) := by
  simp only [step, fetch, hc, hb, runOffered, Bool.false_eq_true, if_false, contextOf_setCaller, hd]

/-- The step that runs an inner row. -/
theorem step_inner {s : State} {e : Encoded} {rest : List CallerEvent} {i : Instr}
    (hc : s.caller = .inner e :: rest) (hd : decode (contextOf s) e = .instr i) :
    step s = exec i (setCaller rest s) := by
  simp only [step, fetch, hc, runOffered, contextOf_setCaller, hd]

/-- RX_READ inside a receive always goes on or ends the receive: it never stops. -/
theorem exec_rxRead {r : ReadResult} {s : State} (h : s.receiving = true)
    (hw : r.within s.cfg.readCapacity = true) : exec (.rxRead r) s = .next (resume (rxRead r s)) := by
  simp only [exec, execRxRead, hw]; exact receiveRow_here _ h

/-- The step of a receive, on a scripted read that fits. -/
theorem step_read {s : State} {r : ReadResult} {rest : List ReadResult} (h : s.receiving = true)
    (hc : s.caller = []) (hr : s.line.reads = r :: rest) (hw : r.within s.cfg.readCapacity = true) :
    step s = .next (resume (rxRead r
      (setLine (Transport.note (.read s.cfg.readCapacity r) { s.line with reads := rest }) s))) := by
  have hb := (receiving_iff.mp h).1
  simp only [step, fetch, hc, fetchOwn, hb, if_true, runOwnRead, streamRead_scripted hr hw]
  exact exec_rxRead (by simpa [State.receiving] using h) hw

/-! ### What the receive loop depends on -/

/-- Alike in all the receive machine looks at. -/
def sameCapture (s t : State) : Prop :=
  s.cfg = t.cfg ∧ s.rxState = t.rxState ∧ s.emptyCnt = t.emptyCnt ∧ s.mem = t.mem

theorem rxByte_congr (b : Byte) {s t : State} (h : sameCapture s t) :
    sameCapture (rxByte b s).1 (rxByte b t).1 ∧ (rxByte b s).2 = (rxByte b t).2 := by
  obtain ⟨h1, h2, h3, h4⟩ := h
  unfold rxByte rxStartByte rxNoiseByte rxEndByte rxBodyByte
  rw [h2, h1, h4]
  split <;> split <;> (try split) <;> simp [sameCapture, *]

theorem rxBytes_congr (bs : List Byte) {s t : State} (h : sameCapture s t) :
    sameCapture (rxBytes bs s).1 (rxBytes bs t).1 ∧ (rxBytes bs s).2 = (rxBytes bs t).2 := by
  induction bs generalizing s t with
  | nil => exact ⟨h, rfl⟩
  | cons b bs ih =>
    have hb := rxByte_congr b h
    by_cases hc : (rxByte b s).2 = .goOn
    · rw [rxBytes_cons_continue hc, rxBytes_cons_continue (hb.2 ▸ hc)]; exact ih hb.1
    · rw [rxBytes_cons_end hc, rxBytes_cons_end (hb.2 ▸ hc)]; exact hb

theorem rxRead_congr (r : ReadResult) {s t : State} (h : sameCapture s t) :
    sameCapture (rxRead r s).1 (rxRead r t).1 ∧ (rxRead r s).2 = (rxRead r t).2 := by
  have he : sameCapture (rxEmpty s).1 (rxEmpty t).1 ∧ (rxEmpty s).2 = (rxEmpty t).2 := by
    obtain ⟨h1, h2, h3, h4⟩ := h
    simp [rxEmpty, sameCapture, *]
  unfold rxRead
  rw [h.1]
  split
  · split
    · exact ⟨h, rfl⟩
    · exact he
  · exact he
  · exact rxBytes_congr _ ⟨h.1, h.2.1, rfl, h.2.2.2⟩

theorem receiveLoop_congr (rs : List ReadResult) {s t : State} (h : sameCapture s t) :
    receiveLoop rs s = receiveLoop rs t := by
  induction rs generalizing s t with
  | nil => rfl
  | cons r rs ih =>
    have hr := rxRead_congr r h
    rcases hs : rxRead r s with ⟨s', y⟩
    rcases ht : rxRead r t with ⟨t', z⟩
    rw [hs, ht] at hr
    obtain ⟨hr, rfl⟩ := hr
    simp only [receiveLoop, hs, ht]
    cases y with
    | goOn => exact ih hr
    | _ => rfl

/-- The counter takes no part in judging bytes. -/
theorem rxByte_setEmptyCnt (b : Byte) (s : State) (n : BitVec 2) :
    rxByte b (setEmptyCnt n s) = (setEmptyCnt n (rxByte b s).1, (rxByte b s).2) := by
  obtain ⟨h, hb, h'⟩ | ⟨h, hb, h'⟩ | ⟨h, hb, h'⟩ | ⟨h, hb, hf, h'⟩ | ⟨h, hb, hf, h'⟩ := rxByte_cases b s
  · subst hb; rw [h', rxByte_start (by exact h)]; rfl
  · rw [h', rxByte_noise (by exact h) hb]
  · subst hb; rw [h', rxByte_end (by exact h)]; rfl
  · rw [h', rxByte_full (s := setEmptyCnt n s) h hb hf]
  · rw [h', rxByte_fits (s := setEmptyCnt n s) h hb hf]; rfl

theorem rxBytes_setEmptyCnt (bs : List Byte) (s : State) (n : BitVec 2) :
    rxBytes bs (setEmptyCnt n s) = (setEmptyCnt n (rxBytes bs s).1, (rxBytes bs s).2) := by
  induction bs generalizing s with
  | nil => rfl
  | cons b bs ih =>
    by_cases h : (rxByte b s).2 = .goOn
    · rw [rxBytes_cons_continue h, rxBytes_cons_continue (by rw [rxByte_setEmptyCnt]; exact h), rxByte_setEmptyCnt]
      exact ih _
    · rw [rxBytes_cons_end h, rxBytes_cons_end (by rw [rxByte_setEmptyCnt]; exact h), rxByte_setEmptyCnt]

end Sys2Proof.Machine
end

