-- ==== Sys2Proof/Tests/Slice0.lean ====
section
/-! SUPPORT. The model's own tests: ill-formed rows refused, every row decoded from written words, one step of every
row against the vectors of spec/95_test_vectors.md, and a witness for the hypotheses of every statement. -/

namespace Sys2Proof.Tests

open Sys2Proof.Machine Sys2Proof.Safety

/-! ### States and views used below -/

/-- The configuration of 95_test_vectors.md: the defaults with `READ_CAPACITY` = 16. -/
def cfg16 : Config := { Config.default with readCapacity := 16 }

/-- Idle after a successful OPEN. -/
def idle : State := { State.reset with cfg := cfg16, opened := true }

/-- Idle before OPEN. -/
def closed : State := { State.reset with cfg := cfg16 }

/-- A receive that waits for its start delimiter. -/
def waiting : State := { idle with busy := true }

/-- A receive with `b` captured. -/
def capturing (b : List Byte) : State := { waiting with rxState := .capturing, mem := ⟨b, b.length⟩ }

/-- Step 4 of EXCHANGE with `b` captured. -/
def replying (b : List Byte) : State := { capturing b with exchStep := 4#3 }

/-- The idle state with a read-error policy that tolerates errors. -/
def tolerant : State := { waiting with cfg := { cfg16 with readErrorPolicy := .tolerate } }

/-- A capture bound of four bytes (V-RXB-10). -/
def bounded (b : List Byte) : State := { capturing b with cfg := { cfg16 with maxBody := .atMost 4 } }

/-- A machine with a payload bound. -/
def limited (n : Nat) : State := { idle with cfg := { cfg16 with maxPayload := .atMost n } }

/-- A transport with scripted results. -/
def scripted (opens : List OpenResult) (writes : List WriteResult) (reads : List ReadResult) : Transport :=
  { Transport.idle with opens := opens, writes := writes, reads := reads }

/-- One field of the state an outcome gives. -/
def view {α : Type} (f : State → α) : Host.Outcome State Fault Refusal → Option α
  | .next s => some (f s)
  | .fault _ => none
  | .refused _ => none

/-- The outcome just delivered: `status` and `data_out`. -/
def said (o : Host.Outcome State Fault Refusal) : Option (Option (Nat × List Byte)) :=
  view (fun s => s.rsp.head?.map fun r => (r.status.toNat, r.dataOut)) o

/-- `RX_STATE`, `EMPTY_CNT`, `CAPBUF`, `BUSY`. -/
def rxView (o : Host.Outcome State Fault Refusal) : Option (RxState × Nat × List Byte × Bool) :=
  view (fun s => (s.rxState, s.emptyCnt.toNat, s.mem.capBuf, s.busy)) o

/-! ### WellFormed: an ill-formed term for each check -/

theorem test_wf_payload_bound : (Instr.appendCrc [1#8, 2#8]).wf { cfg16 with maxPayload := .atMost 1 } = false := by decide
theorem test_wf_encode_bound : (Instr.encodeFrame [1#8, 2#8]).wf { cfg16 with maxPayload := .atMost 1 } = false := by decide
theorem test_wf_decode_bound : (Instr.decodeFrame [1#8, 2#8]).wf { cfg16 with maxPayload := .atMost 1 } = false := by decide
theorem test_wf_verify_bound : (Instr.verifyCrc [1#8, 2#8]).wf { cfg16 with maxPayload := .atMost 1 } = false := by decide
theorem test_wf_exchange_bound : (Instr.exchange [1#8, 2#8]).wf { cfg16 with maxPayload := .atMost 1 } = false := by decide
theorem test_wf_strip_short : (Instr.stripDelims [0xC0#8]).wf cfg16 = false := by decide
theorem test_wf_read_capacity : (Instr.rxRead (.bytes [1#8, 2#8])).wf Config.default = false := by decide
theorem test_wf_noise_start : (Instr.rxNoise 0xC0#8).wf cfg16 = false := by decide
theorem test_wf_body_end : (Instr.rxBody 0xC1#8).wf cfg16 = false := by decide
theorem test_wf_literal_marker : (Instr.decLiteral 0x7D#8).wf cfg16 = false := by decide
theorem test_wf_symbol_reserved : (Instr.literal 0xC1#8).wf cfg16 = false := by decide
theorem test_wf_config_capacity : Config.wf { cfg16 with readCapacity := 0 } = false := by decide
theorem test_wf_config_bounds :
    Config.wf { cfg16 with maxBody := .atMost 0 } = false ∧ Config.wf { cfg16 with maxPayload := .atMost 0 } = false := by
  decide

/-! ### Decode: every row from a word written out from the spec's encoding -/

/-- Decoding while waiting, with no marker pending. -/
def ctxW : Context := ⟨.waitingForStart, false⟩

/-- Decoding while capturing, with a marker pending. -/
def ctxC : Context := ⟨.capturing, true⟩

theorem test_decode_codec_commands :
    decode ctxW (.cmd ⟨0b000#3, .bytes [1#8]⟩) = .instr (.appendCrc [1#8]) ∧
    decode ctxW (.cmd ⟨0b001#3, .bytes [1#8]⟩) = .instr (.encodeFrame [1#8]) ∧
    decode ctxW (.cmd ⟨0b010#3, .bytes [1#8]⟩) = .instr (.decodeFrame [1#8]) ∧
    decode ctxW (.cmd ⟨0b011#3, .bytes [1#8]⟩) = .instr (.verifyCrc [1#8]) := by decide

theorem test_decode_line_commands :
    decode ctxW (.cmd ⟨0b100#3, .bytes [9#8]⟩) = .instr .receiveFrame ∧
    decode ctxW (.cmd ⟨0b101#3, .bytes [1#8]⟩) = .instr (.exchange [1#8]) ∧
    decode ctxW (.cmd ⟨0b110#3, .openArgs ⟨1, 2, 3⟩⟩) = .instr (.openStream ⟨1, 2, 3⟩) ∧
    decode ctxW (.cmd ⟨0b111#3, .bytes [1#8, 2#8]⟩) = .instr .reservedOp7 := by decide

theorem test_decode_stages :
    decode ctxW (.stage (.escape [1#8])) = .instr (.escape [1#8]) ∧
    decode ctxW (.stage (.wrap [1#8])) = .instr (.wrap [1#8]) ∧
    decode ctxW (.stage (.stripDelims [1#8, 2#8])) = .instr (.stripDelims [1#8, 2#8]) ∧
    decode ctxW (.stage (.rxRead (.error 1))) = .instr (.rxRead (.error 1)) := by decide

theorem test_decode_receive_classes :
    decode ctxW (.rxByte 0b11000000#8) = .instr .rxStart ∧
    decode ctxW (.rxByte 0b11000001#8) = .instr (.rxNoise 0xC1#8) ∧
    decode ctxC (.rxByte 0b11000001#8) = .instr .rxEnd ∧
    decode ctxC (.rxByte 0b11000000#8) = .instr (.rxBody 0xC0#8) := by decide

theorem test_decode_unescape_classes :
    decode ctxW (.decByte 0b01111101#8) = .instr .decEsc ∧
    decode ctxW (.decByte 0b11000001#8) = .instr (.decLiteral 0xC1#8) ∧
    decode ctxC (.decByte 0b01111101#8) = .instr (.decEscaped 0x7D#8) ∧
    decode ctxC .decEnd = .instr .decTruncated ∧ decode ctxW .decEnd = .rejected .endOfInput := by decide

theorem test_decode_symbols :
    decode ctxW (.txSymbol [0b01111101#8, 0b10111101#8]) = .instr .pairStart ∧
    decode ctxW (.txSymbol [0b01111101#8, 0b10111100#8]) = .instr .pairEnd ∧
    decode ctxW (.txSymbol [0b01111101#8, 0b00000000#8]) = .instr .pairEsc ∧
    decode ctxW (.txSymbol [0b10111101#8]) = .instr (.literal 0xBD#8) := by decide

theorem test_decode_delimiters :
    decode ctxW (.txDelim 0b11000000#8) = .instr .frameStart ∧
    decode ctxW (.txDelim 0b11000001#8) = .instr .frameEnd := by decide

theorem test_decode_rejects :
    decode ctxW (.cmd ⟨6#3, .bytes []⟩) = .rejected .operandShape ∧
    decode ctxW (.txSymbol []) = .rejected .emptySymbol ∧
    decode ctxW (.txSymbol [0xC0#8]) = .rejected .bareDelimiter ∧
    decode ctxW (.txSymbol [0x7D#8]) = .rejected .loneEscape ∧
    decode ctxW (.txSymbol [0x7D#8, 0x41#8]) = .rejected .nonCanonicalPair ∧
    decode ctxW (.txSymbol [0x41#8, 0x42#8]) = .rejected .trailingBytes ∧
    decode ctxW (.txDelim 0x7D#8) = .rejected .notADelimiter := by decide

/-- The rows of the table that have fixed bits, as the table numbers them. -/
theorem test_table_words :
    decodeTableWord 8 5 = some (.exchange []) ∧ decodeTableWord 8 6 = some (.openStream ⟨0, 0, 0⟩) ∧
    decodeTableWord 8 192 = some .rxStart ∧ decodeTableWord 8 193 = some .rxEnd ∧
    decodeTableWord 8 125 = some .decEsc ∧ decodeTableWord 16 32189 = some .pairStart ∧
    decodeTableWord 16 32188 = some .pairEnd ∧ decodeTableWord 16 32000 = some .pairEsc := by decide

/-! ### The checksum (95_test_vectors.md 2.1) -/

theorem test_crc_values :
    crc16 [] = 0xFFFF#16 ∧ crc16 [0x01#8, 0x02#8] = 0xE181#16 ∧ crc16 [0xFF#8, 0xFF#8] = 0#16 ∧
    crc16 [0x31#8, 0x32#8, 0x33#8, 0x34#8, 0x35#8, 0x36#8, 0x37#8, 0x38#8, 0x39#8] = 0x4B37#16 := by decide +kernel

/-- V-CRC-T: the first byte's eight shift steps, and the table entries FE and 7C. -/
theorem test_crc_trace :
    crcShift 0xFFFE#16 = 0x7FFF#16 ∧ crcShift 0x7FFF#16 = 0x9FFE#16 ∧ crcByte 0xFFFF#16 1#8 = 0x807E#16 ∧
    crcTable 0xFE#8 = 0x8081#16 ∧ crcTable 0x7C#8 = 0xE101#16 := by decide +kernel

/-! ### One step of each row -/

/-- V-APP-9 and V-APP-1. -/
theorem test_append :
    said (exec (.appendCrc [0x00#8, 0x01#8]) closed) = some (some (0, [0x00#8, 0x01#8, 0xC0#8, 0x70#8])) ∧
    said (exec (.appendCrc []) closed) = some (some (1, [])) := by decide +kernel

/-- V-ENC-6, V-ENC-10. -/
theorem test_encode :
    said (exec (.encodeFrame [0x53#8, 0x53#8, 0x7D#8, 0x7D#8]) closed) =
      some (some (0, [0xC0#8, 0x53#8, 0x53#8, 0x7D#8, 0x00#8, 0x7D#8, 0x00#8, 0xC1#8])) ∧
    said (exec (.encodeFrame [0xBD#8, 0xBC#8, 0x00#8]) closed) =
      some (some (0, [0xC0#8, 0xBD#8, 0xBC#8, 0x00#8, 0xC1#8])) := by decide

/-- V-DEC-8, V-DEC-9, V-DEC-3. -/
theorem test_decode_frame :
    said (exec (.decodeFrame [0x7D#8, 0xC1#8]) closed) = some (some (0, [0xBC#8])) ∧
    said (exec (.decodeFrame [0xC0#8, 0x01#8]) closed) = some (some (0, [0xC0#8, 0x01#8])) ∧
    said (exec (.decodeFrame [0x01#8, 0x7D#8]) closed) = some (some (6, [])) := by decide

/-- V-VER-4, V-VER-9. -/
theorem test_verify :
    said (exec (.verifyCrc [0xFF#8, 0xFF#8]) closed) = some (some (0, [])) ∧
    said (exec (.verifyCrc [0x01#8, 0x02#8, 0xE1#8, 0x81#8]) closed) = some (some (5, [0x01#8, 0x02#8])) := by decide +kernel

/-- The entry of R70, and `NotOpen`. -/
theorem test_receive_entry :
    rxView (exec .receiveFrame idle) = some (.waitingForStart, 0, [], true) ∧
    said (exec .receiveFrame closed) = some (some (9, [])) := by decide

/-- Program P2 command 1, and the write of program P1: one call, the frame of [01 02]. -/
theorem test_exchange_head :
    said (exec (.exchange [0x01#8, 0x02#8]) closed) = some (some (9, [])) ∧
    view (fun s => (s.line.log, s.exchStep.toNat, s.busy))
        (exec (.exchange [0x01#8, 0x02#8]) { idle with line := scripted [] [.written 6] [] }) =
      some ([.wrote [0xC0#8, 0x01#8, 0x02#8, 0x81#8, 0xE1#8, 0xC1#8] (.written 6)], 4, true) := by decide +kernel

/-- A short write is `WriteError`; the reply of V-EXC kind `C0 FF FF C1` gives the empty payload. -/
theorem test_exchange_ends :
    said (exec (.exchange [0x01#8, 0x02#8]) { idle with line := scripted [] [.written 5] [] }) = some (some (3, [])) ∧
    said (exec .rxEnd (replying [0xFF#8, 0xFF#8])) = some (some (0, [])) ∧
    said (exec .rxEnd (replying [])) = some (some (1, [])) := by decide +kernel

/-- V-OPEN-1, V-OPEN-2. -/
theorem test_open :
    view (fun s => (s.opened, s.line.settings, s.rsp)) (exec (.openStream ⟨1, 2, 3⟩)
        { closed with line := scripted [.handle] [] [] }) = some (true, some ⟨1, 2, 3⟩, [⟨0#4, []⟩]) ∧
    view (fun s => (s.opened, s.line.settings, s.rsp)) (exec (.openStream ⟨1, 2, 3⟩)
        { closed with line := scripted [.error 7] [] [] }) = some (false, none, [⟨2#4, []⟩]) := by decide

/-- V-ILL-1. -/
theorem test_reserved : said (exec .reservedOp7 closed) = some (some (10, [])) := by decide

/-- V-ESC-6, V-WRAP-1, V-STRIP-3. -/
theorem test_stages :
    view State.out (exec (.escape [0xC0#8, 0xC1#8, 0x7D#8, 0xE0#8, 0x4D#8]) closed) =
      some [0x7D#8, 0xBD#8, 0x7D#8, 0xBC#8, 0x7D#8, 0x00#8, 0xE0#8, 0x4D#8] ∧
    view State.out (exec (.wrap []) closed) = some [0xC0#8, 0xC1#8] ∧
    view State.out (exec (.stripDelims [0x55#8, 0x01#8, 0x66#8]) closed) = some [0x01#8] := by decide

/-- V-RXB-2, V-RXB-4. -/
theorem test_rx_waiting :
    rxView (exec (.rxNoise 0xC1#8) waiting) = some (.waitingForStart, 0, [], true) ∧
    rxView (exec .rxStart waiting) = some (.capturing, 0, [], true) := by decide

/-- V-RXB-6, V-RXB-8. -/
theorem test_rx_capturing :
    rxView (exec (.rxBody 0xC0#8) (capturing [0x01#8])) = some (.capturing, 0, [0x01#8, 0xC0#8], true) ∧
    said (exec .rxEnd (capturing [0x01#8, 0x02#8])) = some (some (0, [0x01#8, 0x02#8])) := by decide

/-- V-RXB-10, V-RXB-11. -/
theorem test_rx_full :
    said (exec (.rxBody 0x05#8) (bounded [0x01#8, 0x02#8, 0x03#8, 0x04#8])) = some (some (7, [])) ∧
    said (exec .rxEnd (bounded [0x01#8, 0x02#8, 0x03#8, 0x04#8])) =
      some (some (0, [0x01#8, 0x02#8, 0x03#8, 0x04#8])) := by decide

/-- V-RXR-1, V-RXR-2, V-RXR-3. -/
theorem test_read_empty :
    rxView (exec (.rxRead (.bytes [])) waiting) = some (.waitingForStart, 1, [], true) ∧
    said (exec (.rxRead (.bytes [])) { waiting with emptyCnt := 2#2 }) = some (some (4, [])) ∧
    rxView (exec (.rxRead (.bytes [0x55#8])) { waiting with emptyCnt := 2#2 }) =
      some (.waitingForStart, 0, [], true) := by decide

/-- V-RXR-4, V-RXR-5, V-RXR-6. -/
theorem test_read_error :
    said (exec (.rxRead (.error 1)) { waiting with emptyCnt := 2#2 }) = some (some (8, [])) ∧
    said (exec (.rxRead (.error 1)) { tolerant with emptyCnt := 2#2 }) = some (some (4, [])) ∧
    said (exec (.rxRead (.bytes [0x02#8, 0xC1#8, 0x99#8])) { capturing [0x01#8] with emptyCnt := 2#2 }) =
      some (some (0, [0x01#8, 0x02#8])) := by decide

/-- Idle in a walk of decoder rows, just after a marker. -/
def marked : State := { closed with escPend := true, walking := true }

/-- The classes of R47 on their own: V-DEC-7 and V-DEC-2. -/
theorem test_dec_classes :
    view (fun s => (s.escPend, s.out)) (exec .decEsc closed) = some (true, []) ∧
    view (fun s => (s.escPend, s.out)) (exec (.decEscaped 0x41#8) marked) = some (false, [0x3C#8]) ∧
    view (fun s => (s.escPend, s.out)) (exec (.decLiteral 0xC1#8) closed) = some (false, [0xC1#8]) ∧
    said (exec .decTruncated marked) = some (some (6, [])) := by decide

/-- No walk is under way after reset or after DECODE_FRAME, so what `ESC_PEND` holds then is not read (R103). -/
theorem test_dec_reads_no_stale_marker :
    view (fun s => (s.escPend, s.out)) (exec (.decLiteral 0x41#8) { closed with escPend := true, out := [9#8] }) =
      some (false, [0x41#8]) ∧
    view (fun s => (s.escPend, s.escPending)) (exec (.decodeFrame [0x7D#8]) marked) = some (true, false) := by decide

/-- The symbols and delimiters of R43 and R41. -/
theorem test_symbols :
    view State.out (exec .pairStart { closed with out := [1#8] }) = some [1#8, 0x7D#8, 0xBD#8] ∧
    view State.out (exec .pairEnd closed) = some [0x7D#8, 0xBC#8] ∧
    view State.out (exec .pairEsc closed) = some [0x7D#8, 0x00#8] ∧
    view State.out (exec (.literal 0xBC#8) closed) = some [0xBC#8] ∧
    view State.out (exec .frameStart closed) = some [0xC0#8] ∧
    view State.out (exec .frameEnd closed) = some [0xC1#8] := by decide

/-- A read longer than `READ_CAPACITY` leaves its end in the queue (R30, R35). -/
theorem test_read_is_split :
    (streamRead { waiting with cfg := Config.default, line := scripted [] [] [.bytes [1#8, 2#8], .error 3] }).2 =
      .bytes [1#8] ∧
    (streamRead { waiting with cfg := Config.default, line := scripted [] [] [.bytes [1#8, 2#8], .error 3] }).1.line.reads =
      [.bytes [2#8], .error 3] := by decide

/-- The step that runs a word placed after reset. -/
theorem test_with_fetch_word :
    said (step (State.reset.withFetchWord 8 7)) = some (some (10, [])) ∧
    rxView (step (State.reset.withFetchWord 8 192)) = some (.capturing, 0, [], true) ∧
    view State.out (step (State.reset.withFetchWord 16 32189)) = some [0x7D#8, 0xBD#8] := by decide

theorem test_refusals :
    exec (.appendCrc [1#8]) waiting = .refused .commandWhileBusy ∧
    exec (.openStream ⟨1, 2, 3⟩) idle = .refused .openWhileOpen ∧
    exec (.appendCrc [1#8, 2#8]) (limited 1) = .refused .inputTooLong ∧
    exec .rxStart idle = .refused .outOfContext ∧
    exec (.literal 0xC0#8) idle = .refused .illFormed := ⟨rfl, rfl, rfl, rfl, rfl⟩

/-! ### Witnesses: concrete values that meet the hypotheses of each statement, clause by clause -/

/-- The caller's list set. -/
def asking (evs : List CallerEvent) (s : State) : State := { s with caller := evs }

theorem witness_DecodeOfEncodeIsTheRow :
    (Instr.rxBody 0xC0#8).wf cfg16 = true ∧ (Instr.rxBody 0xC0#8).inContext ctxC = true ∧
    (Instr.stripDelims [1#8, 2#8]).wf cfg16 = true ∧ (Instr.literal 0xBD#8).wf cfg16 = true ∧
    (Instr.rxRead (.bytes [0#8])).wf Config.default = true ∧ Instr.decTruncated.inContext ctxC = true := by decide

theorem witness_DecodedRowHasTheWordsBits :
    decode ctxC (.decByte 0x7D#8) = .instr (.decEscaped 0x7D#8) ∧
    decode ctxW (.txSymbol [0x7D#8, 0x00#8]) = .instr .pairEsc := by decide

theorem witness_StepRunsTheDecodedInstruction :
    ((asking [.inner (.txDelim 0xC0#8)] idle).caller = [.inner (.txDelim 0xC0#8)] ∧
      decode (contextOf idle) (.txDelim 0xC0#8) = .instr .frameStart) ∧
    (idle.busy = false ∧ decode (contextOf idle) (.cmd ⟨7#3, .bytes []⟩) = .instr .reservedOp7) ∧
    decode (contextOf idle) (.txSymbol []) = .rejected .emptySymbol ∧
    ((asking [.force ⟨6#3, .bytes []⟩] waiting).caller = [.force ⟨6#3, .bytes []⟩] ∧
      decode (contextOf waiting) (.cmd ⟨6#3, .bytes []⟩) = .rejected .operandShape) ∧
    ((asking [.call ⟨0#3, .openArgs ⟨1, 2, 3⟩⟩] idle).caller = [.call ⟨0#3, .openArgs ⟨1, 2, 3⟩⟩] ∧ idle.busy = false ∧
      decode (contextOf idle) (.cmd ⟨0#3, .openArgs ⟨1, 2, 3⟩⟩) = .rejected .operandShape) ∧
    (waiting.busy = true ∧ waiting.caller = []) ∧
    (asking [.tick] waiting).caller = [.tick] ∧ (idle.busy = false ∧ idle.caller = []) := by decide

theorem witness_ResetEventRestoresResetValues : (asking [.reset, .tick] (capturing [1#8])).caller = .reset :: [.tick] := rfl

/-- A receive under way, with a body byte in the queue. -/
def underWay : State := { capturing [1#8] with line := scripted [] [] [.bytes [2#8]] }

theorem witness_StepKeepsTheInvariant : StepInv underWay ∧ ∃ t, step underWay = .next t := ⟨by decide, _, rfl⟩

theorem witness_NoStepWritesTheConfiguration : ∃ t, step underWay = .next t := ⟨_, rfl⟩

theorem witness_OnlyResetClearsOpened :
    (∃ t, step (asking [.reset] idle) = .next t ∧ idle.opened = true ∧ t.opened = false) ∧
    ∃ t, step { asking [.call ⟨6#3, .openArgs ⟨1, 2, 3⟩⟩] closed with line := scripted [.handle] [] [] } = .next t ∧
      closed.opened = false ∧ t.opened = true := ⟨⟨_, rfl, rfl, rfl⟩, ⟨_, rfl, rfl, rfl⟩⟩

theorem witness_OneTransportCallAStepWriteBeforeReads :
    (∃ t, step { asking [.call ⟨6#3, .openArgs ⟨1, 2, 3⟩⟩] closed with line := scripted [.error 1] [] [] } = .next t ∧
      t.line.log = [.opened ⟨1, 2, 3⟩ (.error 1)]) ∧
    (∃ t f, step { asking [.call ⟨5#3, .bytes [1#8]⟩] idle with line := scripted [] [.error 1] [] } = .next t ∧
      t.line.log = [.wrote f (.error 1)]) ∧
    ∃ t, step underWay = .next t ∧ t.line.log = [.read 16 (.bytes [2#8])] :=
  ⟨⟨_, rfl, rfl⟩, ⟨_, _, rfl, rfl⟩, ⟨_, rfl, rfl⟩⟩

theorem witness_OutcomeEndsTheOperation :
    (∃ t, step { underWay with line := scripted [] [] [.bytes [0xC1#8]] } = .next t ∧ underWay.busy = true ∧
      t.busy = false) ∧
    ∃ t, step (asking [.reset] underWay) = .next t ∧ t.busy = false := ⟨⟨_, rfl, rfl, rfl⟩, ⟨_, rfl, rfl⟩⟩

theorem witness_CapturingGoesOnUntilATerminalEvent :
    underWay.busy = true ∧ underWay.rxState = .capturing ∧ ∃ t, step underWay = .next t ∧ t.busy = true :=
  ⟨rfl, rfl, _, rfl, rfl⟩

theorem witness_FailureEntryLeavesTheBlockIdle :
    (∃ t, exec (.rxRead (.error 1)) underWay = .next t ∧ t.rsp = ⟨8#4, []⟩ :: underWay.rsp ∧ underWay.busy = true) ∧
    ∃ t, exec (.verifyCrc [0#8]) closed = .next t ∧ t.rsp = ⟨5#4, []⟩ :: closed.rsp := ⟨⟨_, rfl, rfl, rfl⟩, ⟨_, rfl, rfl⟩⟩

theorem witness_CommandsSeeNothingEarlierOnesLeft :
    isCommand .receiveFrame = true ∧ idle.busy = false ∧
      sameOutside idle { idle with crcAcc := 5#16, escPend := true, mem := ⟨[1#8], 1⟩ } := by decide

/-- Two machines in step 4 of one EXCHANGE, and two idle ones outside a walk, that differ in what may not be read. -/
theorem witness_EveryStepKeepsMachinesAlike :
    sameVisible { replying [1#8] with escPend := true, crcAcc := 5#16, out := [7#8] } (replying [1#8]) ∧
    sameVisible { asking [.inner (.decByte 0x41#8)] closed with escPend := true, rxState := .capturing }
      (asking [.inner (.decByte 0x41#8)] closed) := by decide

theorem witness_OtherRowsLeaveTheTransportAlone :
    ∃ t, exec .rxStart waiting = .next t ∧ (∀ a, Instr.rxStart ≠ .openStream a) ∧ ∀ q, Instr.rxStart ≠ .exchange q :=
  ⟨_, rfl, by simp, by simp⟩

theorem witness_MemoryFrame :
    (∃ t, exec (.appendCrc [1#8]) closed = .next t ∧ closed.busy = false) ∧
    (∃ t, exec (.rxNoise 0xC1#8) waiting = .next t) ∧
    ∃ t, exec (.rxBody 0x05#8) (bounded [1#8, 2#8, 3#8]) = .next t ∧ t.busy = true ∧
      (bounded [1#8, 2#8, 3#8]).mem.capLen = (bounded [1#8, 2#8, 3#8]).mem.capBuf.length :=
  ⟨⟨_, rfl, rfl⟩, ⟨_, rfl⟩, ⟨_, rfl, rfl, rfl⟩⟩

theorem witness_CodecFrame :
    (∃ t, exec (.appendCrc [1#8]) closed = .next t) ∧ (∃ t, exec (.encodeFrame [1#8]) closed = .next t) ∧
    (∃ t, exec (.decodeFrame [1#8]) closed = .next t) ∧ (∃ t, exec (.verifyCrc [1#8]) closed = .next t) ∧
    (∃ t, exec .reservedOp7 closed = .next t) ∧ closed.exchStep = 0#3 :=
  ⟨⟨_, rfl⟩, ⟨_, rfl⟩, ⟨_, rfl⟩, ⟨_, rfl⟩, ⟨_, rfl⟩, rfl⟩

theorem witness_ChecksumProperties :
    crc16 ([] ++ [0xFF#8, 0xFF#8]) = 0#16 ∧ crc16 ([0x01#8, 0x02#8] ++ [0x81#8, 0xE1#8]) = 0#16 ∧
    crc16 ([] ++ [0xFF#8] ++ [0xFF#8]) = 0#16 := by decide +kernel

theorem witness_OneFlippedBitIsDetected :
    (limited 4).busy = false ∧
    (limited 4).cfg.maxPayload.admits ([0x01#8] ++ [0x02#8] ++ [0x81#8, 0xE1#8]).length = true ∧
    crc16 ([0x01#8] ++ [0x02#8] ++ [0x81#8, 0xE1#8]) = 0#16 := by decide +kernel

theorem witness_ShortInputsToVerify : (limited 2).busy = false ∧ (limited 2).cfg.maxPayload.admits 2 = true := by decide

/-- The input that just fits, for the four codec results and the frame. -/
theorem witness_codec_results :
    (limited 1).busy = false ∧ (limited 1).cfg.maxPayload.admits [0xC0#8].length = true ∧ [0xC0#8] ≠ [] := by decide

theorem witness_VerifyCrcResult :
    crc16 [0xFF#8, 0xFF#8] = 0#16 ∧ (limited 2).cfg.maxPayload.admits [0xFF#8, 0xFF#8].length = true ∧
    crc16 [0x00#8] ≠ 0#16 ∧ (limited 2).cfg.maxPayload.admits [0x00#8].length = true ∧ (limited 2).busy = false := by
  decide +kernel

theorem witness_DecodeFrameResult :
    unescape [0x7D#8, 0x7D#8] = some [0x00#8] ∧ unescape [0x7D#8, 0x7D#8, 0x7D#8] = none ∧
    (limited 3).cfg.maxPayload.admits [0x7D#8, 0x7D#8, 0x7D#8].length = true := by decide

theorem witness_EmptyInputIsReported :
    ((limited 1).busy = false ∧ (limited 1).cfg.maxPayload.admits 0 = true ∧ (limited 1).opened = true) ∧
    (replying []).busy = true ∧ (replying []).exchStep = 4#3 ∧ (replying []).rxState = .capturing ∧
    (replying []).mem.capBuf = [] := by decide

theorem witness_FrameInvariant :
    encodeFrame [0x7D#8] = .ok [0xC0#8, 0x7D#8, 0x00#8, 0xC1#8] ∧
    [0xC0#8, 0x7D#8, 0x00#8, 0xC1#8][1]? = some 0x7D#8 ∧ 1 < [0xC0#8, 0x7D#8, 0x00#8, 0xC1#8].length - 1 := by decide

theorem witness_FormatLengths :
    appendCrc [0xC0#8] = .ok [0xC0#8, 0xBF#8, 0x10#8] ∧
    encodeFrame [0xC0#8, 0xBF#8, 0x10#8] = .ok [0xC0#8, 0x7D#8, 0xBD#8, 0xBF#8, 0x10#8, 0xC1#8] := by decide +kernel

theorem witness_RoundTrip :
    [0xC0#8] ≠ [] ∧ appendCrc [0xC0#8] = .ok [0xC0#8, 0xBF#8, 0x10#8] := by decide +kernel

theorem witness_EscapingIsCompleteAndFree :
    encodeFrame [0x7D#8] = .ok [0xC0#8, 0x7D#8, 0x00#8, 0xC1#8] ∧
    ([0xBD#8] ≠ [] ∧ ∀ b ∈ [0xBD#8], reserved b = false) ∧ ([0xC1#8] ≠ [] ∧ 0x7D#8 ∉ [0xC1#8]) := by decide

/-- An idle machine, for the rows that need nothing more; a byte next to the reserved ones for LITERAL. -/
theorem witness_inner_rows :
    closed.busy = false ∧ (0xC2#8 ≠ 0xC0#8 ∧ 0xC2#8 ≠ 0xC1#8 ∧ 0xC2#8 ≠ 0x7D#8) ∧ [0xC0#8].length < 2 := by decide

theorem witness_SymbolRowsMakeTheFrame :
    closed.busy = false ∧ closed.out = [] ∧ encodeFrame [0xC0#8] = .ok [0xC0#8, 0x7D#8, 0xBD#8, 0xC1#8] := by decide

theorem witness_DecoderClassResults :
    (closed.busy = false ∧ closed.escPending = false ∧ 0xC0#8 ≠ 0x7D#8) ∧ marked.busy = false ∧ marked.escPending = true := by
  decide

theorem witness_DecoderClassesWalkTheBody :
    closed.busy = false ∧ closed.walking = false ∧
    (asking [.inner (.decByte 0x7D#8), .inner .decEnd] closed).caller =
      [0x7D#8].map (fun c => CallerEvent.inner (.decByte c)) ++ .inner .decEnd :: [] ∧
    decodeFrame [0x7D#8] = .fail .truncatedEscape [] ∧ decodeFrame [0x7D#8, 0x7D#8] = .ok [0x00#8] := by decide

theorem witness_ReceiveFrameEntry :
    (idle.busy = false ∧ idle.opened = true) ∧ closed.busy = false ∧ closed.opened = false := by decide

theorem witness_WaitingClassResults :
    waiting.receiving = true ∧ waiting.rxState = .waitingForStart ∧ 0xC1#8 ≠ 0xC0#8 := by decide

theorem witness_BodyByteIsAppended :
    ((bounded [1#8, 2#8, 3#8]).receiving = true ∧ (bounded [1#8, 2#8, 3#8]).rxState = .capturing ∧ 0xC0#8 ≠ 0xC1#8 ∧
      (bounded [1#8, 2#8, 3#8]).cfg.maxBody ≠ .atMost (bounded [1#8, 2#8, 3#8]).mem.capLen) ∧
    (bounded [1#8, 2#8, 3#8, 4#8]).cfg.maxBody = .atMost (bounded [1#8, 2#8, 3#8, 4#8]).mem.capLen := by decide

theorem witness_EndDelimiterDeliversTheBody :
    (bounded [1#8, 2#8, 3#8, 4#8]).busy = true ∧ (bounded [1#8, 2#8, 3#8, 4#8]).exchStep = 0#3 ∧
    (bounded [1#8, 2#8, 3#8, 4#8]).rxState = .capturing := by decide

theorem witness_EndDelimiterFinishesTheExchange :
    (replying [0xFF#8, 0xFF#8]).busy = true ∧ (replying [0xFF#8, 0xFF#8]).exchStep = 4#3 ∧
    (replying [0xFF#8, 0xFF#8]).rxState = .capturing := by decide

theorem witness_ReadResults :
    waiting.receiving = true ∧ waiting.emptyCnt ≠ 2#2 ∧ { waiting with emptyCnt := 2#2 }.emptyCnt = 2#2 ∧
    waiting.cfg.readErrorPolicy = .fatal ∧ tolerant.cfg.readErrorPolicy = .tolerate ∧
    ([0xC1#8] ≠ [] ∧ [0xC1#8].length ≤ cfg16.readCapacity ∧ waiting.rxState = .waitingForStart ∧ 0xC0#8 ∉ [0xC1#8]) ∧
    ((bounded [1#8, 2#8, 3#8]).rxState = .capturing ∧ 0xC1#8 ∉ [0xC0#8] ∧
      (bounded [1#8, 2#8, 3#8]).cfg.maxBody.admits ((bounded [1#8, 2#8, 3#8]).mem.capLen + [0xC0#8].length) = true) := by
  decide

theorem witness_ReadIsItsBytesRowByRow :
    waiting.receiving = true ∧ [0xC0#8, 0xC1#8] ≠ [] ∧ [0xC0#8, 0xC1#8].length ≤ waiting.cfg.readCapacity := by decide

theorem witness_FirstTerminalByteDecides :
    (rxBytes [0xC0#8, 0x01#8] waiting).2 = .goOn ∧ (rxBytes [0xC0#8, 0xC1#8] waiting).2 ≠ .goOn := by decide

/-- An idle machine asked for one command, with scripted results. -/
def asked (c : Command) (writes : List WriteResult) (reads : List ReadResult) : State :=
  { asking [.call c] idle with line := scripted [] writes reads }

theorem witness_SilentLineTimesOutAfterThreeReads :
    (asked ⟨4#3, .bytes []⟩ [] [.bytes [], .bytes [], .bytes []]).busy = false ∧
    (asked ⟨4#3, .bytes []⟩ [] [.bytes [], .bytes [], .bytes []]).opened = true ∧
    (asked ⟨4#3, .bytes []⟩ [] [.bytes [], .bytes [], .bytes []]).line.reads =
      [.bytes [], .bytes [], .bytes []] ++ [] := by decide

/-- Two empty reads and noise before a frame. -/
def noisy : List ReadResult := [.bytes [], .bytes [], .bytes [0x55#8, 0xC1#8]]

/-- The read that completes a frame, with a byte behind it. -/
def lastRead : ReadResult := .bytes [0xC0#8, 0x01#8, 0xC1#8, 0x09#8]

theorem witness_ReceiveResynchronises :
    (asked ⟨4#3, .bytes []⟩ [] (noisy ++ [lastRead] ++ [])).busy = false ∧
    (asked ⟨4#3, .bytes []⟩ [] (noisy ++ [lastRead] ++ [])).opened = true ∧
    (∀ r ∈ noisy ++ [lastRead], r.within 16 = true) ∧
    ((noisy ++ [lastRead]).map dataOf).flatten = [0x55#8, 0xC1#8] ++ [0xC0#8] ++ [0x01#8] ++ [0xC1#8] ++ [0x09#8] ∧
    [0x09#8].length < (dataOf lastRead).length ∧
    0xC0#8 ∉ [0x55#8, 0xC1#8] ∧ 0xC1#8 ∉ [0x01#8] ∧ (Bound.atMost 1).admits [0x01#8].length = true ∧
    noThreeEmpty (noisy.map dataOf) = true := by decide

theorem witness_ReceiveResynchronises_policy :
    idle.cfg.readErrorPolicy = .fatal ∧ ∀ r ∈ noisy, ∃ bs, r = .bytes bs := by simp [noisy]; decide

theorem witness_ReceiveNeedNotEnd :
    (waiting.receiving = true ∧ waiting.caller = [] ∧ waiting.rxState = .waitingForStart ∧
      (∀ c ∈ [[0xC1#8]], c ≠ [] ∧ c.length ≤ waiting.cfg.readCapacity) ∧ ∀ c ∈ [[0xC1#8]], 0xC0#8 ∉ c) ∧
    ((capturing []).rxState = .capturing ∧ (capturing []).cfg.maxBody = .unbounded ∧ ∀ c ∈ [[0xC0#8]], 0xC1#8 ∉ c) := by
  decide

theorem witness_ReceiveRunIsTheScriptFunction :
    (asked ⟨4#3, .bytes []⟩ [] [.bytes [0xC0#8], .bytes [0xC1#8]]).busy = false ∧
    (∀ r ∈ (asked ⟨4#3, .bytes []⟩ [] [.bytes [0xC0#8], .bytes [0xC1#8]]).line.reads, r.within 16 = true) ∧
    receiveOn [.bytes [0xC0#8], .bytes [0xC1#8]] idle = some (.ok [], []) ∧
    receiveOn [.bytes [0xC0#8]] idle = none ∧ receiveOn [] closed = some (.fail .notOpen [], []) := by decide

theorem witness_OpenResult :
    closed.busy = false ∧ closed.opened = false ∧ (scripted [.handle] [] []).opens = .handle :: [] ∧
    (scripted [.error 1] [] []).opens = .error 1 :: [] ∧ closed.line.opens = [] := by decide

theorem witness_ExchangeWritesOnceThenReceives :
    (limited 2).busy = false ∧ (limited 2).opened = true ∧
    (limited 2).cfg.maxPayload.admits [0x01#8, 0x02#8].length = true ∧ [0x01#8, 0x02#8] ≠ [] := by decide

/-- Noise, an empty read and the first half of a frame. -/
def early : List ReadResult := [.bytes [0x55#8], .bytes [], .bytes [0xC0#8, 0xFF#8]]

/-- The second half of the peer's empty payload `C0 FF FF C1` (program P5, command 2). -/
def late : ReadResult := .bytes [0xFF#8, 0xC1#8]

/-- The frame of the request [01 02] (95_test_vectors.md S7). -/
def request : List Byte := [0xC0#8, 0x01#8, 0x02#8, 0x81#8, 0xE1#8, 0xC1#8]

theorem witness_ExchangeReturnsThePeersPayload :
    encodeRequest [0x01#8, 0x02#8] = .ok request ∧
    (asked ⟨5#3, .bytes [0x01#8, 0x02#8]⟩ [.written request.length] (early ++ [late] ++ [])).opened = true ∧
    [0x01#8, 0x02#8] ≠ [] ∧ idle.cfg.maxPayload.admits [0x01#8, 0x02#8].length = true ∧
    (∀ r ∈ early ++ [late], r.within 16 = true) ∧
    ((early ++ [late]).map dataOf).flatten = [0x55#8] ++ wrap (escape ([] ++ crc16LE [])) ++ [] ∧
    ([] : List Byte).length < (dataOf late).length ∧ 0xC0#8 ∉ [0x55#8] ∧
    (Bound.atMost 2).admits (escape ([] ++ crc16LE [])).length = true ∧
    noThreeEmpty (early.map dataOf) = true := by decide +kernel

theorem witness_ExchangeReturnsThePeersPayload_reads : ∀ r ∈ early ++ [late], ∃ bs, r = .bytes bs := by
  simp [early, late]

theorem witness_ExchangeRunIsTheScriptFunction :
    (asked ⟨5#3, .bytes [0x01#8, 0x02#8]⟩ [.written 6] [.bytes [0xC0#8, 0xFF#8, 0xFF#8, 0xC1#8]]).line.writes =
      .written 6 :: [] ∧
    encodeRequest [0x01#8, 0x02#8] = .ok [0xC0#8, 0x01#8, 0x02#8, 0x81#8, 0xE1#8, 0xC1#8] ∧
    clipWrite 6 (.written 6) = .written 6 ∧
    exchangeOn [0x01#8, 0x02#8] (.written 6) [.bytes [0xC0#8, 0xFF#8, 0xFF#8, 0xC1#8]] idle = some (.ok [], []) ∧
    exchangeOn [0x01#8, 0x02#8] (.written 6) [.bytes [0xC0#8]] idle = none := by decide +kernel

theorem witness_NotOpenComesFirst :
    closed.busy = false ∧ closed.opened = false ∧ closed.cfg.maxPayload.admits ([] : List Byte).length = true := by decide

theorem witness_ReservedCodeAnswersIllegalOp : StepInv closed ∧ closed.busy = false := by decide

theorem witness_CommandsThatHaveNoStep :
    (isCommand .reservedOp7 = true ∧ waiting.busy = true) ∧ (idle.busy = false ∧ idle.opened = true) ∧
    (limited 1).busy = false ∧ (limited 1).cfg.maxPayload.admits [1#8, 2#8].length = false := by decide

theorem witness_InnerRowsNeedTheirContext :
    ((ReadResult.bytes []).within idle.cfg.readCapacity = true ∧ idle.receiving = false) ∧
    (capturing []).rxState = .capturing ∧ waiting.rxState = .waitingForStart ∧
    (marked.busy = false ∧ marked.escPending = true) ∧ (closed.busy = false ∧ closed.escPending = false) ∧
    waiting.busy = true ∧ 0xC1#8 ≠ 0xC0#8 ∧ 0xC0#8 ≠ 0xC1#8 ∧ 0xC0#8 ≠ 0x7D#8 := by decide

theorem witness_ReadsConsumeWhatTheyReturn :
    underWay.line.reads = .bytes [2#8] :: [] ∧ (ReadResult.bytes [2#8]).within underWay.cfg.readCapacity = true := by
  decide

end Sys2Proof.Tests
end

/-! PROOFS. The scope of the block (00_scope.md R6, 10_state.md R20, R24): the parameters are fixed for the life of
an instance, and the registers have the reset values of the spec's table. -/

namespace Sys2Proof.Machine

/-! ### The configuration under the operations that end a step -/

/-- However a byte or a read leaves a receive, the configuration stays. -/
@[simp] theorem resume_cfg (s : State) (y : RxYield) : (resume (s, y)).cfg = s.cfg := by
  cases y with
  | goOn => rfl
  | raised f => simp
  | done body =>
    by_cases h : s.exchStep = 4#3
    · obtain ⟨_, _, _, hcfg, _⟩ := exchangeTail_effect body (receiveInit s)
      simp [resume_done_exchange body h, hcfg]
    · simp [resume_done_receive body h]

@[simp] theorem exchangeHead_cfg (q : List Byte) (s : State) : (exchangeHead q s).cfg = s.cfg :=
  (exchangeHead_cases q s).left

@[simp] theorem openAnswered_streamOpen_cfg (a : OpenArgs) (s : State) :
    (openAnswered (streamOpen a s)).cfg = s.cfg := by
  obtain ⟨_, h⟩ | ⟨_, _, h⟩ := openAnswered_cases a s <;> simp [h]

/-! ### The configuration under a row and under a step -/

/-- No row writes the configuration, one case per shape a row's next state can have. -/
theorem exec_cfg {i : Instr} {s t : State} (h : exec i s = .next t) : t.cfg = s.cfg := by
  cases exec_effect h with
  | concludes v u _ _ writes _ => rw [conclude_cfg, writes]; simp
  | quiet bs p w _ => simp
  | receives m st n y _ _ _ _ => simp
  | begins _ _ _ => simp
  | exchanges q _ _ _ => simp
  | opens a _ _ _ => simp

/-- No step writes the configuration: the reset event copies it, a row keeps it, and so do the read before RX_READ
and an idle step. -/
theorem step_cfg {s t : State} (h : step s = .next t) : t.cfg = s.cfg := by
  obtain ⟨rest, _, rfl⟩ | ⟨i, rest, hrow⟩ | ⟨_, rest, hread⟩ | ⟨_, rest, rfl⟩ := step_cases h
  · rfl
  · simpa using exec_cfg hrow
  · simpa using exec_cfg hread
  · rfl

end Sys2Proof.Machine

namespace Sys2Proof.Proofs

open Sys2Proof.Machine

/-- Settles O10: what every step keeps of the parameters, `step_cfg`. -/
theorem noStepWritesTheConfiguration : Obligations.NoStepWritesTheConfiguration :=
  fun _ _ h => step_cfg h

/-- Settles O7: `State.reset` holds the values R24 and R6 write down, field by field. -/
theorem resetStateHasTheSpecsValues : Obligations.ResetStateHasTheSpecsValues :=
  ⟨⟨rfl, rfl, rfl⟩, rfl, rfl, rfl, rfl⟩

end Sys2Proof.Proofs

/-! PROOFS. The invariant of the block's registers at step boundaries (10_state.md R11 to R15, R24): a case analysis of
`exec_effect` for a row and of `step_cases` for a step. -/

namespace Sys2Proof.Machine

open Sys2Proof.Safety

/-! ### A receive that began or ended -/

@[simp] theorem resume_opened (s : State) (y : RxYield) : (resume (s, y)).opened = s.opened := by
  cases y with
  | goOn => rfl
  | raised f => simp
  | done body =>
    by_cases h : s.exchStep = 4#3
    · obtain ⟨_, _, _, _, hopened, _⟩ := exchangeTail_effect body (receiveInit s)
      simp [resume_done_exchange body h, hopened]
    · simp [resume_done_receive body h]

/-- A terminal byte or read ends the running receive with one outcome, everything back at rest (42_receive.md R70). -/
theorem resume_ends {s : State} {y : RxYield} (hs : s.receiving = true) (hy : y ≠ .goOn) :
    (∃ v : Verdict, v.tidy ∧ (resume (s, y)).rsp = v.response :: s.rsp) ∧ (resume (s, y)).busy = false ∧
      (resume (s, y)).exchStep = 0#3 ∧ receiveAtRest (resume (s, y)) := by
  obtain ⟨hrsp, hbusy, hstep, _, _, _, _, _, hrest⟩ := resume_effect (receiving_iff.mp hs).2 hy
  exact ⟨⟨_, endVerdict_tidy s y, hrsp⟩, hbusy, hstep, hrest⟩

/-- The head of an EXCHANGE either enters step 4, a receive at its beginning, or fails and leaves the receive
registers alone (43_exchange.md R76). -/
theorem exchangeHead_outcome (q : List Byte) (s : State) :
    ((exchangeHead q s).busy = s.busy ∧ (exchangeHead q s).exchStep = 4#3 ∧ receiveAtRest (exchangeHead q s) ∧
        (exchangeHead q s).rsp = s.rsp) ∨
      ((exchangeHead q s).busy = false ∧ (exchangeHead q s).exchStep = 0#3 ∧
        (exchangeHead q s).rxState = s.rxState ∧ (exchangeHead q s).emptyCnt = s.emptyCnt ∧
        (exchangeHead q s).mem = s.mem ∧
        ∃ f, (exchangeHead q s).rsp = (Verdict.fail f []).response :: s.rsp) := by
  obtain ⟨_, _, _, _, _, ⟨_, hfail⟩ | ⟨_, _, _, _, _, _, hfull | hshort⟩⟩ := exchangeHead_cases q s
  · rw [hfail]
    exact .inr ⟨rfl, rfl, rfl, rfl, rfl, _, rfl⟩
  · exact .inl hfull.2
  · obtain ⟨_, hbusy, hstep, hrsp, hrx, hcnt, hmem⟩ := hshort
    exact .inr ⟨hbusy, hstep, hrx, hcnt, hmem, _, hrsp⟩

@[simp] theorem exchangeHead_opened (q : List Byte) (s : State) : (exchangeHead q s).opened = s.opened :=
  (exchangeHead_cases q s).2.1

/-! ### The invariant, for an idle block and for a receive at its beginning -/

/-- One more legal outcome. -/
theorem legal_cons {v : Verdict} {rs : List Response} (hv : v.tidy) (h : ∀ r ∈ rs, responseLegal r) :
    ∀ r ∈ v.response :: rs, responseLegal r :=
  List.forall_mem_cons.mpr ⟨tidy_legal hv, h⟩

theorem stepInv_of_idle {t : State} (hbusy : t.busy = false) (hrest : receiveAtRest t) (hstep : t.exchStep = 0#3)
    (hlegal : ∀ r ∈ t.rsp, responseLegal r) : StepInv t := by
  obtain ⟨hrx, hcnt, hmem⟩ := hrest
  exact ⟨hmem ▸ Memory.empty_wf _, fun _ => ⟨hrx, hcnt, by rw [hmem], hstep⟩, by simp [busyReceiving, hbusy], hlegal⟩

theorem stepInv_of_begun {t : State} (hbusy : t.busy = true) (hrest : receiveAtRest t) (hopen : t.opened = true)
    (hstep : t.exchStep = 0#3 ∨ t.exchStep = 4#3) (hlegal : ∀ r ∈ t.rsp, responseLegal r) : StepInv t := by
  obtain ⟨_, hcnt, hmem⟩ := hrest
  exact ⟨hmem ▸ Memory.empty_wf _, by simp [idleAtRest, hbusy],
    fun _ => ⟨hopen, hstep, by simp [hcnt], fun _ => by rw [hmem]⟩, hlegal⟩

/-- Between operations the invariant is the receive registers and `EXCH_STEP` at rest, and legal outcomes. -/
theorem idle_of_stepInv {s : State} (h : StepInv s) (hbusy : s.busy = false) :
    receiveAtRest s ∧ s.exchStep = 0#3 ∧ ∀ r ∈ s.rsp, responseLegal r := by
  obtain ⟨⟨hlen, _⟩, hidle, _, hlegal⟩ := h
  obtain ⟨hrx, hcnt, hbuf, hstep⟩ := hidle hbusy
  refine ⟨⟨hrx, hcnt, ?_⟩, hstep, hlegal⟩
  rcases hm : s.mem with ⟨buf, len⟩
  rw [hm] at hlen hbuf
  simp_all

/-! ### The invariant under a row and under a step -/

/-- A receive goes on, or ends at rest. -/
theorem stepInv_resume {s : State} {y : RxYield} (hs : s.receiving = true) (hopen : s.opened = true)
    (hm : s.mem.wf s.cfg.maxBody) (hw : s.rxState = .waitingForStart → s.mem.capBuf = [])
    (hn : y = .goOn → s.emptyCnt ≠ 3#2) (hlegal : ∀ r ∈ s.rsp, responseLegal r) : StepInv (resume (s, y)) := by
  obtain ⟨hbusy, hstep⟩ := receiving_iff.mp hs
  by_cases hy : y = .goOn
  · rw [hy]
    exact ⟨hm, by simp [idleAtRest, hbusy], fun _ => ⟨hopen, hstep, hn hy, hw⟩, hlegal⟩
  · obtain ⟨⟨v, hv, hrsp⟩, hidle, hzero, hrest⟩ := resume_ends hs hy
    exact stepInv_of_idle hidle hrest hzero (hrsp ▸ legal_cons hv hlegal)

/-- Every row keeps the invariant, one case per shape a row's next state can have. -/
theorem exec_stepInv {i : Instr} {s t : State} (hs : StepInv s) (h : exec i s = .next t) : StepInv t := by
  cases exec_effect h with
  | concludes v u idle tidy writes _ =>
    obtain ⟨hrest, hstep, hlegal⟩ := idle_of_stepInv hs idle
    rw [writes]
    refine stepInv_of_idle (by simp) (by simpa [receiveAtRest] using hrest) ?_ (by simpa using legal_cons tidy hlegal)
    cases v with
    | ok data => simpa using hstep
    | fail f data => simp
  | quiet bs p w idle => exact hs
  | receives m st n y running _ wf counts =>
    obtain ⟨hm, _, hreceive, hlegal⟩ := hs
    obtain ⟨hopen, _, hcnt, hw⟩ := hreceive (receiving_iff.mp running).1
    obtain ⟨hm', hw'⟩ := wf hm hw
    exact stepInv_resume running hopen hm' hw' (counts hcnt) hlegal
  | begins _ idle isOpen =>
    exact stepInv_of_begun rfl ⟨rfl, rfl, rfl⟩ isOpen (.inl rfl) (idle_of_stepInv hs idle).2.2
  | exchanges q _ idle isOpen =>
    obtain ⟨hrest, hstep, hlegal⟩ := idle_of_stepInv hs idle
    obtain ⟨hbusy, hfour, hrest', hrsp⟩ | ⟨hbusy, hzero, hrx, hcnt, hmem, f, hrsp⟩ :=
      exchangeHead_outcome q (setBusy true s)
    · exact stepInv_of_begun hbusy hrest' (by simpa using isOpen) (.inr hfour) (hrsp ▸ hlegal)
    · refine stepInv_of_idle hbusy ?_ hzero (hrsp ▸ legal_cons (tidy_fail_nil f) hlegal)
      rw [receiveAtRest, hrx, hcnt, hmem]
      exact hrest
  | opens a _ idle closed =>
    obtain ⟨hrest, hstep, hlegal⟩ := idle_of_stepInv hs idle
    obtain ⟨_, hopen⟩ | ⟨_, _, hopen⟩ := openAnswered_cases a (setBusy true s) <;> rw [hopen]
    · exact stepInv_of_idle rfl hrest hstep (legal_cons (tidy_ok []) hlegal)
    · exact stepInv_of_idle rfl hrest rfl (legal_cons (tidy_fail_nil .openError) hlegal)

/-- Every step keeps the invariant: the reset event restores it, a row keeps it (neither the caller's list nor
the line is part of it), and an idle step changes nothing it speaks of. -/
theorem step_stepInv {s t : State} (hs : StepInv s) (h : step s = .next t) : StepInv t := by
  obtain ⟨rest, _, rfl⟩ | ⟨i, rest, hrow⟩ | ⟨_, rest, hread⟩ | ⟨_, rest, rfl⟩ := step_cases h
  · exact stepInv_of_idle rfl ⟨rfl, rfl, rfl⟩ rfl hs.2.2.2
  · exact exec_stepInv (s := setCaller rest s) hs hrow
  · exact exec_stepInv (s := (streamRead (setCaller rest s)).1) hs hread
  · exact hs

end Sys2Proof.Machine

namespace Sys2Proof.Proofs

open Sys2Proof.Machine

/-- Settles O9: `step_stepInv`, over the shapes of a row's next state and the kinds of step. -/
theorem stepKeepsTheInvariant : Obligations.StepKeepsTheInvariant :=
  fun _ _ hs h => step_stepInv hs h

/-- Settles O8: after reset the block is idle and at rest, and nothing was delivered. -/
theorem resetSatisfiesTheInvariant : Obligations.ResetSatisfiesTheInvariant :=
  stepInv_of_idle rfl ⟨rfl, rfl, rfl⟩ rfl (by simp [State.reset])

end Sys2Proof.Proofs

/-! PROOFS. Who sets and clears `OPENED` (10_state.md R14), how an operation ends (R15), and what a capture keeps until
its terminal event (R13, 42_receive.md R74). -/

namespace Sys2Proof.Machine

open Sys2Proof.Safety

/-! ### Under a row -/

/-- A row leaves `OPENED` as it is, but for OPEN that the transport answered with a handle. -/
theorem exec_opened {i : Instr} {s t : State} (h : exec i s = .next t) :
    t.opened = s.opened ∨
      ∃ a, i = .openStream a ∧ s.opened = false ∧ t.line.log = .opened a .handle :: s.line.log := by
  cases exec_effect h with
  | concludes v u _ _ writes _ => rw [writes]; simp
  | quiet bs p w _ => exact .inl rfl
  | receives m st n y _ _ _ _ => simp
  | begins _ _ _ => exact .inl rfl
  | exchanges q _ _ _ => simp
  | opens a row _ closed =>
    obtain ⟨hhandle, hopen⟩ | ⟨_, _, hopen⟩ := openAnswered_cases a (setBusy true s) <;> rw [hopen]
    · refine .inr ⟨a, row, closed, ?_⟩
      simp only [setBusy_line] at hhandle
      simp [Transport.note, hhandle]
    · simp

/-- A row delivers nothing, and then ends nothing, or it delivers one outcome and leaves the block idle. -/
theorem exec_outcome {i : Instr} {s t : State} (h : exec i s = .next t) :
    (t.rsp = s.rsp ∧ (s.busy = true → t.busy = true)) ∨ ∃ r, t.rsp = r :: s.rsp ∧ t.busy = false := by
  cases exec_effect h with
  | concludes v u _ _ writes _ => rw [writes]; simp
  | quiet bs p w _ => exact .inl ⟨rfl, id⟩
  | receives m st n y running _ _ _ =>
    by_cases hy : y = .goOn
    · rw [hy]; exact .inl ⟨rfl, id⟩
    · obtain ⟨⟨v, _, hrsp⟩, hbusy, _⟩ :=
        resume_ends (s := setEmptyCnt n (setMem m (setRxState st s))) running hy
      exact .inr ⟨_, hrsp, hbusy⟩
  | begins _ _ _ => exact .inl ⟨rfl, fun _ => rfl⟩
  | exchanges q _ _ _ =>
    obtain ⟨hbusy, _, _, hrsp⟩ | ⟨hbusy, _, _, _, _, f, hrsp⟩ := exchangeHead_outcome q (setBusy true s)
    · exact .inl ⟨hrsp, fun _ => hbusy⟩
    · exact .inr ⟨_, hrsp, hbusy⟩
  | opens a _ _ _ =>
    obtain ⟨_, hopen⟩ | ⟨_, _, hopen⟩ := openAnswered_cases a (setBusy true s) <;> rw [hopen] <;>
      exact .inr ⟨_, rfl, rfl⟩

/-- The same receive, still capturing, with a buffer that only grew at its end. -/
def capturesOn (s t : State) : Prop :=
  t.rxState = .capturing ∧ t.opened = s.opened ∧ t.exchStep = s.exchStep ∧
    ∃ more, t.mem.capBuf = s.mem.capBuf ++ more ∧ t.mem.capLen = s.mem.capLen + more.length

/-- A row that does not end a capture goes on with it: no other row runs while the block is busy. -/
theorem exec_capturesOn {i : Instr} {s t : State} (hs : s.busy = true) (hr : s.rxState = .capturing)
    (h : exec i s = .next t) (ht : t.busy = true) : capturesOn s t := by
  cases exec_effect h with
  | receives m st n y running grows _ _ =>
    by_cases hy : y = .goOn
    · obtain ⟨hst, hgrow⟩ := grows hr hy
      rw [hy]
      exact ⟨hst, rfl, rfl, hgrow⟩
    · obtain ⟨_, hbusy, _⟩ := resume_ends (s := setEmptyCnt n (setMem m (setRxState st s))) running hy
      simp [hbusy] at ht
  | concludes _ _ idle | quiet _ _ _ idle | begins _ idle | exchanges _ _ idle | opens _ _ idle => simp [hs] at idle

/-! ### Under a step -/

theorem step_opened {s t : State} (h : step s = .next t) :
    t.opened = s.opened ∨ (t.opened = false ∧ ∃ rest, s.caller = .reset :: rest) ∨
      (s.opened = false ∧ ∃ a, t.line.log = .opened a .handle :: s.line.log) := by
  obtain ⟨rest, hc, rfl⟩ | ⟨i, rest, hrow⟩ | ⟨_, rest, hread⟩ | ⟨_, rest, rfl⟩ := step_cases h
  · exact .inr (.inl ⟨rfl, rest, hc⟩)
  · obtain hkept | ⟨a, _, hclosed, hlog⟩ := exec_opened hrow
    · exact .inl hkept
    · exact .inr (.inr ⟨hclosed, a, hlog⟩)
  · obtain hkept | ⟨a, hrow, _⟩ := exec_opened hread
    · exact .inl hkept
    · simp at hrow
  · exact .inl rfl

theorem step_outcome {s t : State} (h : step s = .next t) :
    (t.rsp = s.rsp ∧ (s.busy = true → t.busy = true)) ∨ (∃ r, t.rsp = r :: s.rsp ∧ t.busy = false) ∨
      (t.rsp = s.rsp ∧ ∃ rest, s.caller = .reset :: rest) := by
  obtain ⟨rest, hc, rfl⟩ | ⟨i, rest, hrow⟩ | ⟨_, rest, hread⟩ | ⟨hidle, rest, rfl⟩ := step_cases h
  · exact .inr (.inr ⟨rfl, rest, hc⟩)
  · exact (exec_outcome hrow).imp_right .inl
  · exact (exec_outcome hread).imp_right .inl
  · exact .inl ⟨rfl, id⟩

theorem step_capturesOn {s t : State} (hs : s.busy = true) (hr : s.rxState = .capturing)
    (h : step s = .next t) (ht : t.busy = true) : capturesOn s t := by
  obtain ⟨rest, _, rfl⟩ | ⟨i, rest, hrow⟩ | ⟨_, rest, hread⟩ | ⟨hidle, _⟩ := step_cases h
  · simp at ht
  · exact exec_capturesOn (s := setCaller rest s) hs hr hrow ht
  · exact exec_capturesOn (s := (streamRead (setCaller rest s)).1) hs hr hread ht
  · simp [hs] at hidle

end Sys2Proof.Machine

namespace Sys2Proof.Proofs

open Sys2Proof.Machine

/-- Settles O11: the three things a step can do to `OPENED`, `step_opened`. -/
theorem onlyResetClearsOpened : Obligations.OnlyResetClearsOpened := by
  intro s t h
  obtain hkept | ⟨hclear, hreset⟩ | ⟨hclosed, hlog⟩ := step_opened h
  · simp_all
  · exact ⟨fun _ _ => hreset, fun _ hset => by simp [hclear] at hset⟩
  · exact ⟨fun hset _ => by simp [hclosed] at hset, fun _ _ => hlog⟩

/-- Settles O13: a step delivers nothing and ends nothing, or delivers one outcome, or is the reset event. -/
theorem outcomeEndsTheOperation : Obligations.OutcomeEndsTheOperation := by
  intro s t h
  obtain ⟨hnone, hgoes⟩ | ⟨r, hrsp, hidle⟩ | ⟨hnone, hreset⟩ := step_outcome h
  · exact ⟨.inl hnone, fun hs ht => by simp [hgoes hs] at ht⟩
  · exact ⟨.inr ⟨r, hrsp, hidle⟩, fun _ _ => .inl ⟨r, hrsp⟩⟩
  · exact ⟨.inl hnone, fun _ _ => .inr ⟨hnone, hreset⟩⟩

/-- Settles O14: `step_capturesOn`, from what one read or byte of a capture can do. -/
theorem capturingGoesOnUntilATerminalEvent : Obligations.CapturingGoesOnUntilATerminalEvent :=
  fun _ _ hs hr h ht => step_capturesOn hs hr h ht

end Sys2Proof.Proofs

/-! PROOFS. What a step runs, by the caller's next event (10_state.md R9, 70_reset_and_hazards.md R102, R105), the
commands that have no step, and what one read result does to a receive (42_receive.md R69). -/

namespace Sys2Proof.Machine

open Sys2Proof.Safety

/-! ### A step, by the caller's next event -/

section Events

variable {s : State} {rest : List CallerEvent}

theorem step_of_reset (hc : s.caller = .reset :: rest) : step s = .next (applyReset (setCaller rest s)) := by
  simp only [step, fetch, hc]

theorem step_of_inner {e : Encoded} (hc : s.caller = .inner e :: rest) : step s = runOffered e (setCaller rest s) := by
  simp only [step, fetch, hc]

theorem step_of_force {c : Command} (hc : s.caller = .force c :: rest) :
    step s = runOffered (.cmd c) (setCaller rest s) := by
  simp only [step, fetch, hc]

/-- A command is taken by an idle block, and waits for a busy one, which reads (log 5). -/
theorem step_of_call {c : Command} (hc : s.caller = .call c :: rest) :
    step s = if s.busy then runOwnRead s else runOffered (.cmd c) (setCaller rest s) := by
  cases hb : s.busy <;> simp [step, fetch, hc, hb]

theorem step_of_tick (hc : s.caller = .tick :: rest) :
    step s = if s.busy then runOwnRead (setCaller rest s) else .next (setCaller rest s) := by
  cases hb : s.busy <;> simp [step, fetch, fetchOwn, hc, hb]

theorem step_of_nothing (hc : s.caller = []) : step s = if s.busy then runOwnRead s else .next s := by
  cases hb : s.busy <;> simp [step, fetch, fetchOwn, hc, hb]

end Events

theorem runOffered_instr {e : Encoded} {s : State} {i : Instr} (hd : decode (contextOf s) e = .instr i) :
    runOffered e s = exec i s := by
  simp only [runOffered, hd]

theorem runOffered_rejected {e : Encoded} {s : State} {err : DecodeError}
    (hd : decode (contextOf s) e = .rejected err) : runOffered e s = .refused (.undecodable err) := by
  simp only [runOffered, hd]

/-! ### The guards of the commands -/

theorem acceptBytes_tooLong {data : List Byte} {s : State} (k : State → Host.Outcome State Fault Refusal)
    (hb : s.busy = false) (ha : s.cfg.maxPayload.admits data.length = false) :
    acceptBytes data s k = .refused .inputTooLong := by
  simp [acceptBytes, hb, ha]

/-- The commands are these eight rows, the first five with a bounded input (30_encoding.md R50, 20_memory.md R25). -/
theorem isCommand_cases {i : Instr} (h : isCommand i = true) :
    (∃ data, i = .appendCrc data ∨ i = .encodeFrame data ∨ i = .decodeFrame data ∨ i = .verifyCrc data ∨
      i = .exchange data) ∨ i = .receiveFrame ∨ (∃ a, i = .openStream a) ∨ i = .reservedOp7 := by
  cases i <;> simp_all [isCommand]

theorem exec_command_busy {i : Instr} {s : State} (hi : isCommand i = true) (hb : s.busy = true) :
    exec i s = .refused .commandWhileBusy := by
  obtain ⟨data, rfl | rfl | rfl | rfl | rfl⟩ | rfl | ⟨a, rfl⟩ | rfl := isCommand_cases hi <;>
    simp only [exec, execAppendCrc, execEncodeFrame, execDecodeFrame, execVerifyCrc, execExchange, execReceiveFrame,
      execOpenStream, execReservedOp7, acceptBytes_busy _ hb, accept_busy _ hb]

theorem exec_openStream_opened {s : State} (a : OpenArgs) (hb : s.busy = false) (hopen : s.opened = true) :
    exec (.openStream a) s = .refused .openWhileOpen := by
  simp only [exec, execOpenStream, accept_idle _ hb, setBusy_opened, hopen, if_true]

theorem exec_inputTooLong {data : List Byte} {i : Instr} {s : State} (hb : s.busy = false)
    (ha : s.cfg.maxPayload.admits data.length = false)
    (hi : i = .appendCrc data ∨ i = .encodeFrame data ∨ i = .decodeFrame data ∨ i = .verifyCrc data ∨
      i = .exchange data) : exec i s = .refused .inputTooLong := by
  obtain rfl | rfl | rfl | rfl | rfl := hi <;>
    simp only [exec, execAppendCrc, execEncodeFrame, execDecodeFrame, execVerifyCrc, execExchange,
      acceptBytes_tooLong _ hb ha]

/-! ### The bytes of a read that end nothing -/

/-- Before the start delimiter every other byte is discarded (42_receive.md R68). -/
theorem rxBytes_noise {bs : List Byte} {s : State} (hr : s.rxState = .waitingForStart) (hbs : START ∉ bs) :
    rxBytes bs s = (s, .goOn) := by
  induction bs with
  | nil => rfl
  | cons b bs ih =>
    obtain ⟨hb, hbs⟩ := List.ne_and_not_mem_of_not_mem_cons hbs
    have hbyte := rxByte_noise hr (Ne.symm hb)
    rw [rxBytes_cons_continue (by rw [hbyte]), hbyte, ih hbs]

/-- A buffer with room for more bytes is not full. -/
theorem not_full_of_admits {bound : Bound} {m : Memory} {n : Nat} (h : bound.admits (m.capLen + (n + 1)) = true) :
    captureFull bound m = false := by
  rw [captureFull_false_iff]
  rintro rfl
  simp [Bound.admits] at h

/-- Inside the frame bytes that are not the end delimiter, and fit, are added to the buffer (42_receive.md R68). -/
theorem rxBytes_body {bs : List Byte} {s : State} (hr : s.rxState = .capturing) (hbs : END ∉ bs)
    (hroom : s.cfg.maxBody.admits (s.mem.capLen + bs.length) = true) :
    rxBytes bs s = (setMem { capBuf := s.mem.capBuf ++ bs, capLen := s.mem.capLen + bs.length } s, .goOn) := by
  induction bs generalizing s with
  | nil => simp; rfl
  | cons b bs ih =>
    obtain ⟨hb, hbs⟩ := List.ne_and_not_mem_of_not_mem_cons hbs
    have hbyte := rxByte_fits hr (Ne.symm hb) (not_full_of_admits hroom)
    have hroom' : s.cfg.maxBody.admits ((bufAppend b s).mem.capLen + bs.length) = true := by
      simpa [Nat.add_assoc, Nat.add_comm] using hroom
    rw [rxBytes_cons_continue (by rw [hbyte]), hbyte, ih (s := bufAppend b s) hr hbs hroom']
    simp [bufAppend, setMem, Nat.add_assoc, Nat.add_comm]

/-! ### One read result -/

theorem rxRead_nonEmpty {bs : List Byte} (s : State) (h : bs ≠ []) :
    rxRead (.bytes bs) s = rxBytes bs (setEmptyCnt 0#2 s) := by
  cases bs with
  | nil => exact absurd rfl h
  | cons b bs => rfl

theorem rxRead_error_fatal {s : State} (e : TpError) (h : s.cfg.readErrorPolicy = .fatal) :
    rxRead (.error e) s = (s, .raised .readError) := by
  simp [rxRead, h]

theorem rxRead_error_tolerate {s : State} (e : TpError) (h : s.cfg.readErrorPolicy = .tolerate) :
    rxRead (.error e) s = rxEmpty s := by
  simp [rxRead, h]

theorem exec_rxRead_empty {s : State} (h : s.receiving = true) :
    exec (.rxRead (.bytes [])) s = .next (resume (rxEmpty s)) :=
  exec_rxRead h (by simp [ReadResult.within])

theorem exec_rxRead_error {s : State} (e : TpError) (h : s.receiving = true) :
    exec (.rxRead (.error e)) s = .next (resume (rxRead (.error e) s)) :=
  exec_rxRead h rfl

theorem exec_rxRead_nonEmpty {bs : List Byte} {s : State} (h : s.receiving = true) (hne : bs ≠ [])
    (hlen : bs.length ≤ s.cfg.readCapacity) :
    exec (.rxRead (.bytes bs)) s = .next (resume (rxBytes bs (setEmptyCnt 0#2 s))) := by
  rw [exec_rxRead h (by simpa [ReadResult.within] using hlen), rxRead_nonEmpty s hne]

end Sys2Proof.Machine

namespace Sys2Proof.Proofs

open Sys2Proof.Machine Sys2Proof.Safety

/-- Settles O5: what a step runs, by the caller's next event. -/
theorem stepRunsTheDecodedInstruction : Obligations.StepRunsTheDecodedInstruction := by
  refine ⟨?inner, ?command, ?rejected, ?ownRead, ?tick, ?idle⟩
  case inner =>
    intro s e rest i hc hd
    exact step_inner hc hd
  case command =>
    rintro s c rest i (⟨hc, hb⟩ | hc) hd
    · exact step_call hb hc hd
    · exact (step_of_force hc).trans (runOffered_instr (s := setCaller rest s) hd)
  case rejected =>
    intro s e rest err hc hd
    have hrun := runOffered_rejected (s := setCaller rest s) hd
    obtain hc | ⟨c, rfl, ⟨hc, hb⟩ | hc⟩ := hc
    · exact (step_of_inner hc).trans hrun
    · rw [step_of_call hc, hb]
      exact hrun
    · exact (step_of_force hc).trans hrun
  case ownRead =>
    rintro s hb (hc | ⟨c, rest, hc⟩)
    · rw [step_of_nothing hc, if_pos hb]; rfl
    · rw [step_of_call hc, if_pos hb]; rfl
  case tick =>
    intro s rest hb hc
    rw [step_of_tick hc, if_pos hb]; rfl
  case idle =>
    intro s hb hc
    rw [step_of_nothing hc, hb]; rfl

/-- Settles O6: the reset event is `applyReset`, whose fields are R24's. -/
theorem resetEventRestoresResetValues : Obligations.ResetEventRestoresResetValues :=
  fun _ _ hc => ⟨_, step_of_reset hc, ⟨rfl, rfl, rfl⟩, rfl, rfl, rfl, rfl, rfl, rfl, rfl⟩

/-- Settles O57: the guards in front of the eight commands. -/
theorem commandsThatHaveNoStep : Obligations.CommandsThatHaveNoStep :=
  ⟨fun _ _ hi hb => exec_command_busy hi hb, fun a _ hb hopen => exec_openStream_opened a hb hopen,
    fun _ _ _ hb ha hi => exec_inputTooLong hb ha hi⟩

/-- Settles O44: what `resume` makes of each read result. -/
theorem readResults : Obligations.ReadResults := by
  intro s hs
  refine ⟨?empty, ?third, ?fatal, ?tolerate, ?noise, ?body⟩
  case empty =>
    intro hn
    rw [exec_rxRead_empty hs, rxEmpty_continue hn]; rfl
  case third =>
    intro hn
    rw [exec_rxRead_empty hs, rxEmpty_expired hn]; rfl
  case fatal =>
    intro e hp
    rw [exec_rxRead_error e hs, rxRead_error_fatal e hp]; rfl
  case tolerate =>
    intro e hp
    rw [exec_rxRead_error e hs, rxRead_error_tolerate e hp, exec_rxRead_empty hs]
  case noise =>
    intro bs hne hlen hr hbs
    rw [exec_rxRead_nonEmpty hs hne hlen, rxBytes_noise (s := setEmptyCnt 0#2 s) hr hbs]; rfl
  case body =>
    intro bs hne hlen hr hbs hroom
    rw [exec_rxRead_nonEmpty hs hne hlen, rxBytes_body (s := setEmptyCnt 0#2 s) hr hbs hroom]; rfl

end Sys2Proof.Proofs

/-! PROOFS. What a step may depend on (10_state.md R16, R24, 70_reset_and_hazards.md R103): two machines alike outside
answer a command alike (`command_alike`), and two machines alike in all that may be read answer every row and every
step alike (`exec_alike`, `step_alike`). The operations are taken in the order in which the model builds them up. -/

namespace Sys2Proof.Machine

open Sys2Proof.Safety

/-! ### Answers and relations -/

theorem answersAlike_mono {r r' : State → State → Prop} {a b : Host.Outcome State Fault Refusal}
    (h : answersAlike r a b) (hr : ∀ u v, r u v → r' u v) : answersAlike r' a b := by
  cases a with
  | next u => cases b with
    | next v => exact hr u v h
    | fault | refused => exact h
  | fault | refused => cases b <;> exact h

/-- Two answers that hang on conditions that agree. -/
theorem answersAlike_ite {r : State → State → Prop} {c d : Prop} [Decidable c] [Decidable d]
    {a a' b b' : Host.Outcome State Fault Refusal} (hcd : c ↔ d) (hpos : answersAlike r a b)
    (hneg : answersAlike r a' b') : answersAlike r (if c then a else a') (if d then b else b') := by
  by_cases hc : c
  · rwa [if_pos hc, if_pos (hcd.mp hc)]
  · rwa [if_neg hc, if_neg (mt hcd.mpr hc)]

/-- Machines alike outside, in a receive's registers and in the walk: two running receives that may not differ. -/
def sameReceiving (s t : State) : Prop := sameOutside s t ∧ sameReceive s t ∧ sameWalk s t

/-- What a command makes of two machines alike outside: alike again, a receive that began included, and in the same
walk if they were. -/
def alikeAfter (s t u v : State) : Prop := sameRunning u v ∧ (sameWalk s t → sameWalk u v)

theorem sameReceiving_of_busy {s t : State} (h : sameVisible s t) (hb : s.busy = true) : sameReceiving s t :=
  ⟨h.1.1, h.1.2 hb, h.2⟩

theorem sameVisible_of_receiving {s t : State} (h : sameReceiving s t) : sameVisible s t :=
  ⟨⟨h.1, fun _ => h.2.1⟩, h.2.2⟩

theorem sameRunning_of_idle {s t : State} (h : sameOutside s t) (hb : s.busy = false) : sameRunning s t :=
  ⟨h, fun hb' => by simp [hb] at hb'⟩

theorem receiving_congr {s t : State} (h : sameVisible s t) : s.receiving = t.receiving := by
  obtain ⟨⟨⟨_, _, hbusy, _⟩, hreceive⟩, _⟩ := h
  unfold State.receiving
  rw [← hbusy]
  cases hb : s.busy
  · rfl
  · obtain ⟨_, _, _, hstep⟩ := hreceive hb
    rw [hstep]

theorem escPending_congr {s t : State} (h : sameVisible s t) : s.escPending = t.escPending := by
  obtain ⟨⟨⟨_, _, hbusy, _⟩, _⟩, hwalking, hwalk⟩ := h
  unfold State.escPending
  rw [← hbusy, ← hwalking]
  cases hw : s.walking
  · simp
  · rw [(hwalk hw).1]

theorem walkOf_congr {s t : State} (h : sameWalk s t) : walkOf s = walkOf t := by
  obtain ⟨hwalking, hwalk⟩ := h
  cases hw : s.walking
  · rw [walkOf_outside hw, walkOf_outside (hwalking ▸ hw)]
  · rw [walkOf_under_way hw, walkOf_under_way (hwalking ▸ hw), (hwalk hw).1, (hwalk hw).2]

/-! ### Shared operations -/

theorem setBusy_sameOutside {s t : State} (b : Bool) (h : sameOutside s t) :
    sameOutside (setBusy b s) (setBusy b t) := by
  simp_all [sameOutside]

theorem computeCrc_sameOutside {s t : State} (data : List Byte) (h : sameOutside s t) :
    sameOutside (computeCrc data s) (computeCrc data t) := by
  simpa [sameOutside] using h

theorem computeCrc_sameWalk {s t : State} (data : List Byte) (h : sameWalk s t) :
    sameWalk (computeCrc data s) (computeCrc data t) := by
  simpa [sameWalk] using h

theorem walkBody_sameOutside {s t : State} (b : List Byte) (h : sameOutside s t) :
    sameOutside (walkBody b s) (walkBody b t) := by
  simpa [sameOutside] using h

/-- A walk over a body ends the walk under way, and one over no body leaves it. -/
theorem walkBody_sameWalk {s t : State} (b : List Byte) (h : sameWalk s t) :
    sameWalk (walkBody b s) (walkBody b t) := by
  cases b with
  | nil => exact h
  | cons c b => simp [sameWalk]

theorem takeFailure_alike {s t : State} (inReceive : Bool) (f : Failure) (data : List Byte) (h : sameOutside s t) :
    sameRunning (takeFailure inReceive f data s) (takeFailure inReceive f data t) :=
  sameRunning_of_idle (by simp_all [sameOutside]) (by simp)

theorem takeFailure_sameWalk {s t : State} (inReceive : Bool) (f : Failure) (data : List Byte) (h : sameWalk s t) :
    sameWalk (takeFailure inReceive f data s) (takeFailure inReceive f data t) := by
  simpa [sameWalk] using h

theorem conclude_alike {s t : State} (v : Verdict) (h : sameOutside s t) :
    sameRunning (conclude v s) (conclude v t) :=
  sameRunning_of_idle (by simp_all [sameOutside]) (by simp)

theorem conclude_sameWalk {s t : State} (v : Verdict) (h : sameWalk s t) :
    sameWalk (conclude v s) (conclude v t) := by
  simpa [sameWalk] using h

/-! ### The transport's calls: the answer depends on the transport alone -/

theorem streamRead_sameReceiving {s t : State} (h : sameReceiving s t) :
    sameReceiving (streamRead s).1 (streamRead t).1 ∧ (streamRead s).2 = (streamRead t).2 := by
  obtain ⟨⟨hcfg, hopened, hbusy, hrsp, hline, hcaller⟩, hreceive, hwalk⟩ := h
  refine ⟨⟨⟨hcfg, hopened, hbusy, hrsp, ?_, hcaller⟩, hreceive, hwalk⟩, ?_⟩
  · simp only [streamRead_line, hcfg, hline]
  · rw [streamRead_eq, streamRead_eq t, hcfg, hline]

theorem streamWrite_sameOutside {s t : State} (bs : List Byte) (h : sameOutside s t) :
    sameOutside (streamWrite bs s).1 (streamWrite bs t).1 ∧ (streamWrite bs s).2 = (streamWrite bs t).2 := by
  obtain ⟨hcfg, hopened, hbusy, hrsp, hline, hcaller⟩ := h
  refine ⟨⟨hcfg, hopened, hbusy, hrsp, ?_, hcaller⟩, ?_⟩
  · simp only [streamWrite_line, hline]
  · simp only [streamWrite, hline]

theorem openAnswered_handle (s : State) : openAnswered (s, .handle) = conclude (.ok []) (setOpened true s) := rfl

theorem openAnswered_error (e : TpError) (s : State) :
    openAnswered (s, .error e) = takeFailure false .openError [] s := rfl

/-- OPEN with its answer: a success sets `OPENED`, and neither end touches a walk. -/
theorem openAnswered_alike {s t : State} (a : OpenArgs) (h : sameOutside s t) :
    alikeAfter s t (openAnswered (streamOpen a s)) (openAnswered (streamOpen a t)) := by
  obtain ⟨hcfg, hopened, hbusy, hrsp, hline, hcaller⟩ := h
  have hafter : (streamOpen a s).1.line = (streamOpen a t).1.line := by simp only [streamOpen_line, hline]
  rw [streamOpen_eq a s, streamOpen_eq a t, ← hafter, ← hline]
  generalize (streamOpen a s).1.line = line
  cases s.line.openNext.1 with
  | handle =>
    rw [openAnswered_handle, openAnswered_handle]
    exact ⟨conclude_alike _ ⟨hcfg, rfl, hbusy, hrsp, rfl, hcaller⟩, fun hw => conclude_sameWalk _ hw⟩
  | error e =>
    rw [openAnswered_error, openAnswered_error]
    exact ⟨takeFailure_alike _ _ _ ⟨hcfg, hopened, hbusy, hrsp, rfl, hcaller⟩,
      fun hw => takeFailure_sameWalk _ _ _ hw⟩

/-! ### EXCHANGE -/

theorem exchangeWritten_alike {s t : State} (len : Nat) (w : WriteResult) (h : sameOutside s t) :
    sameRunning (exchangeWritten len (s, w)) (exchangeWritten len (t, w)) := by
  by_cases hw : w = .written len
  · rw [hw, exchangeWritten_full, exchangeWritten_full]
    exact ⟨h, fun _ => ⟨rfl, rfl, rfl, rfl⟩⟩
  · rw [exchangeWritten_short hw, exchangeWritten_short hw]
    exact takeFailure_alike _ _ _ h

theorem exchangeSend_alike {s t : State} (f : List Byte) (h : sameOutside s t) :
    sameRunning (exchangeSend f s) (exchangeSend f t) := by
  unfold exchangeSend
  obtain ⟨hwrite, hresult⟩ := streamWrite_sameOutside
    (s := setInter { s.inter with f := f } (setExchStep 3#3 s))
    (t := setInter { t.inter with f := f } (setExchStep 3#3 t)) f h
  rcases hs : streamWrite f (setInter _ (setExchStep 3#3 s)) with ⟨u, w⟩
  rcases ht : streamWrite f (setInter _ (setExchStep 3#3 t)) with ⟨v, w'⟩
  rw [hs, ht] at hwrite hresult
  obtain rfl : w = w' := hresult
  exact exchangeWritten_alike f.length w hwrite

theorem exchangeHead_alike {s t : State} (q : List Byte) (h : sameOutside s t) :
    alikeAfter s t (exchangeHead q s) (exchangeHead q t) := by
  constructor
  · by_cases hq : q = []
    · rw [hq]
      exact takeFailure_alike _ _ _ h
    · rw [exchangeHead_send hq, exchangeHead_send hq]
      exact exchangeSend_alike _ (computeCrc_sameOutside (s := setExchStep 1#3 s) (t := setExchStep 1#3 t) q h)
  · obtain ⟨_, _, _, hout, hesc, _⟩ := exchangeHead_cases q s
    obtain ⟨_, _, _, hout', hesc', _⟩ := exchangeHead_cases q t
    simp [sameWalk, hout, hesc, hout', hesc']

theorem exchangeTail_alike {s t : State} (b : List Byte) (h : sameOutside s t) :
    sameRunning (exchangeTail b s) (exchangeTail b t) := by
  obtain ⟨hcfg, hopened, _, hrsp, hline, hcaller⟩ := h
  obtain ⟨srsp, sbusy, _, scfg, sopened, sline, scaller, _⟩ := exchangeTail_effect b s
  obtain ⟨trsp, tbusy, _, tcfg, topened, tline, tcaller, _⟩ := exchangeTail_effect b t
  exact sameRunning_of_idle (by simp [sameOutside, *]) sbusy

theorem exchangeTail_sameWalk {s t : State} (b : List Byte) (h : sameWalk s t) :
    sameWalk (exchangeTail b s) (exchangeTail b t) := by
  obtain ⟨swalking, sesc⟩ := exchangeTail_walk b s
  obtain ⟨twalking, tesc⟩ := exchangeTail_walk b t
  obtain ⟨_, _, _, _, _, _, _, _, _, _, sout, _⟩ := exchangeTail_effect b s
  obtain ⟨_, _, _, _, _, _, _, _, _, _, tout, _⟩ := exchangeTail_effect b t
  cases b with
  | nil => simpa [sameWalk, swalking, sesc, sout, twalking, tesc, tout] using h
  | cons c b => simp [sameWalk, swalking, twalking]

/-! ### The commands -/

theorem accept_alike {r : State → State → Prop} {s t : State} {k : State → Host.Outcome State Fault Refusal}
    (h : sameOutside s t) (hk : answersAlike r (k (setBusy true s)) (k (setBusy true t))) :
    answersAlike r (accept s k) (accept t k) := by
  obtain ⟨_, _, hbusy, _⟩ := h
  exact answersAlike_ite (by rw [hbusy]) rfl hk

theorem acceptBytes_alike {r : State → State → Prop} {data : List Byte} {s t : State}
    {k : State → Host.Outcome State Fault Refusal} (h : sameOutside s t)
    (hk : answersAlike r (k (setBusy true s)) (k (setBusy true t))) :
    answersAlike r (acceptBytes data s k) (acceptBytes data t k) := by
  obtain ⟨hcfg, _, hbusy, _⟩ := h
  exact answersAlike_ite (by rw [hbusy]) rfl (answersAlike_ite (by rw [hcfg]) hk rfl)

/-- A command that fails at once, before it looks at any register. -/
theorem command_fails_alike {s t : State} (f : Failure) (h : sameOutside s t) :
    alikeAfter s t (takeFailure false f [] (setBusy true s)) (takeFailure false f [] (setBusy true t)) :=
  ⟨takeFailure_alike _ _ _ (setBusy_sameOutside true h), fun hw => takeFailure_sameWalk _ _ _ hw⟩

/-- A command reads nothing but what machines alike outside agree on. -/
theorem command_alike {i : Instr} {s t : State} (hi : isCommand i = true) (h : sameOutside s t) :
    answersAlike (alikeAfter s t) (exec i s) (exec i t) := by
  have hbusy : sameOutside (setBusy true s) (setBusy true t) := setBusy_sameOutside true h
  have hopened : s.opened = true ↔ t.opened = true := by rw [h.2.1]
  cases i with
  | appendCrc p | verifyCrc p =>
    simp only [exec, execAppendCrc, execVerifyCrc]
    exact acceptBytes_alike h ⟨conclude_alike _ (computeCrc_sameOutside p hbusy),
      fun hw => conclude_sameWalk _ (computeCrc_sameWalk p hw)⟩
  | encodeFrame x =>
    simp only [exec, execEncodeFrame]
    exact acceptBytes_alike h ⟨conclude_alike _ hbusy, fun hw => conclude_sameWalk _ hw⟩
  | decodeFrame b =>
    simp only [exec, execDecodeFrame]
    exact acceptBytes_alike h ⟨conclude_alike _ (walkBody_sameOutside b hbusy),
      fun hw => conclude_sameWalk _ (walkBody_sameWalk b hw)⟩
  | receiveFrame =>
    simp only [exec, execReceiveFrame]
    refine accept_alike h (answersAlike_ite hopened ?_ ?_)
    · exact ⟨⟨hbusy, fun _ => ⟨rfl, rfl, rfl, rfl⟩⟩, id⟩
    · exact command_fails_alike _ h
  | exchange q =>
    simp only [exec, execExchange]
    refine acceptBytes_alike h (answersAlike_ite hopened ?_ ?_)
    · exact exchangeHead_alike q hbusy
    · exact command_fails_alike _ h
  | openStream a =>
    simp only [exec, execOpenStream]
    refine accept_alike h (answersAlike_ite hopened ?_ ?_)
    · rfl
    · exact openAnswered_alike a hbusy
  | reservedOp7 =>
    simp only [exec, execReservedOp7]
    exact accept_alike h (command_fails_alike _ h)
  | _ => simp [isCommand] at hi

/-! ### The rows of a receive -/

/-- However a byte or a read leaves two receives that agree, what follows leaves them alike. -/
theorem resume_alike {s t : State} (y : RxYield) (h : sameReceiving s t) :
    sameVisible (resume (s, y)) (resume (t, y)) := by
  obtain ⟨houtside, ⟨_, _, _, hstep⟩, hwalk⟩ := id h
  cases y with
  | goOn => exact sameVisible_of_receiving h
  | raised f => exact ⟨takeFailure_alike true f [] houtside, takeFailure_sameWalk true f [] hwalk⟩
  | done body =>
    by_cases h4 : s.exchStep = 4#3
    · rw [resume_done_exchange body h4, resume_done_exchange body (hstep ▸ h4)]
      exact ⟨exchangeTail_alike (s := receiveInit s) (t := receiveInit t) body houtside,
        exchangeTail_sameWalk (s := receiveInit s) (t := receiveInit t) body hwalk⟩
    · rw [resume_done_receive body h4, resume_done_receive body (hstep ▸ h4)]
      exact ⟨conclude_alike (s := receiveInit s) (t := receiveInit t) _ houtside, hwalk⟩

theorem receiveRow_alike {admitted hs ht : Bool} {s t : State} {r q : State × RxYield} (h : sameVisible s t)
    (hhere : sameReceiving s t → hs = ht) (hr : sameReceiving s t → sameReceiving r.1 q.1 ∧ r.2 = q.2) :
    answersAlike sameVisible (receiveRow admitted hs s r) (receiveRow admitted ht t q) := by
  obtain ⟨u, y⟩ := r
  obtain ⟨v, z⟩ := q
  unfold receiveRow
  rw [← receiving_congr h]
  cases admitted
  · rfl
  cases hrec : s.receiving
  · rfl
  have hsame := sameReceiving_of_busy h (receiving_iff.mp hrec).1
  obtain ⟨hsame', rfl⟩ := hr hsame
  rw [hhere hsame]
  cases ht
  · rfl
  · exact resume_alike y hsame'

theorem rxBodyByte_alike {s t : State} (b : Byte) (h : sameReceiving s t) :
    sameReceiving (rxBodyByte b s).1 (rxBodyByte b t).1 ∧ (rxBodyByte b s).2 = (rxBodyByte b t).2 := by
  obtain ⟨houtside, ⟨hrx, hcnt, hmem, hstep⟩, hwalk⟩ := id h
  unfold rxBodyByte
  rw [← houtside.1, ← hmem]
  split
  · exact ⟨h, rfl⟩
  · exact ⟨⟨houtside, ⟨hrx, hcnt, congrArg (Memory.append b) hmem, hstep⟩, hwalk⟩, rfl⟩

/-- The receive machine writes its registers only, and what it writes depends on them and the configuration. -/
theorem rxRead_alike {s t : State} (r : ReadResult) (h : sameReceiving s t) :
    sameReceiving (rxRead r s).1 (rxRead r t).1 ∧ (rxRead r s).2 = (rxRead r t).2 := by
  obtain ⟨houtside, ⟨hrx, hcnt, hmem, hstep⟩, hwalk⟩ := h
  obtain ⟨⟨_, hrx', hcnt', hmem'⟩, hyield⟩ := rxRead_congr r (s := s) (t := t) ⟨houtside.1, hrx, hcnt, hmem⟩
  refine ⟨?_, hyield⟩
  rw [rxRead_frame r s, rxRead_frame r t]
  exact ⟨houtside, ⟨hrx', hcnt', hmem', hstep⟩, hwalk⟩

/-! ### The rows on `out` -/

theorem innerRow_alike {admitted hs ht : Bool} {s t u v : State} (h : sameVisible s t) (hhere : hs = ht)
    (huv : sameVisible u v) :
    answersAlike sameVisible (innerRow admitted hs s u) (innerRow admitted ht t v) := by
  obtain ⟨⟨⟨_, _, hbusy, _⟩, _⟩, _⟩ := h
  exact answersAlike_ite (by rw [hbusy]) rfl
    (answersAlike_ite Iff.rfl rfl (answersAlike_ite (by rw [hhere]) rfl huv))

theorem yieldOut_alike {s t : State} (bs : List Byte) (h : sameVisible s t) :
    sameVisible (yieldOut bs s) (yieldOut bs t) :=
  ⟨h.1, h.2.1, fun hw => ⟨(h.2.2 hw).1, rfl⟩⟩

theorem emit_alike {s t : State} (bs : List Byte) (h : sameVisible s t) : sameVisible (emit bs s) (emit bs t) :=
  ⟨h.1, h.2.1, fun hw => ⟨(h.2.2 hw).1, congrArg (· ++ bs) (h.2.2 hw).2⟩⟩

theorem withWalk_alike {s t : State} (w : Walk) (h : sameVisible s t) :
    sameVisible (withWalk w s) (withWalk w t) :=
  ⟨h.1, rfl, fun _ => ⟨rfl, rfl⟩⟩

theorem decTruncated_alike {s t : State} (h : sameVisible s t) :
    sameVisible (takeFailure false .truncatedEscape [] (setWalking false s))
      (takeFailure false .truncatedEscape [] (setWalking false t)) :=
  ⟨takeFailure_alike (s := setWalking false s) (t := setWalking false t) _ _ _ h.1.1, rfl, by simp⟩

/-! ### Every row and every step -/

/-- A row reads nothing but what machines alike in all that may be read agree on. -/
theorem exec_alike {s t : State} (i : Instr) (h : sameVisible s t) :
    answersAlike sameVisible (exec i s) (exec i t) := by
  have hcommand (hi : isCommand i = true) : answersAlike sameVisible (exec i s) (exec i t) :=
    answersAlike_mono (command_alike hi h.1.1) fun _ _ huv => ⟨huv.1, huv.2 h.2⟩
  have hrx (hr : sameReceiving s t) (v : RxState) : (s.rxState == v) = (t.rxState == v) := by rw [hr.2.1.1]
  have hesc := escPending_congr h
  have hwalk := walkOf_congr h.2
  cases i with
  | appendCrc | encodeFrame | decodeFrame | verifyCrc | receiveFrame | exchange | openStream | reservedOp7 =>
    exact hcommand rfl
  | escape | wrap | stripDelims =>
    simp only [exec, execEscape, execWrap, execStripDelims]
    exact innerRow_alike h rfl (yieldOut_alike _ h)
  | pairStart | pairEnd | pairEsc | literal | frameStart | frameEnd =>
    simp only [exec, execPairStart, execPairEnd, execPairEsc, execLiteral, execFrameStart, execFrameEnd]
    exact innerRow_alike h rfl (emit_alike _ h)
  | decEsc | decLiteral | decEscaped =>
    simp only [exec, execDecEsc, execDecLiteral, execDecEscaped, hesc, hwalk]
    exact innerRow_alike h rfl (withWalk_alike _ h)
  | decTruncated =>
    simp only [exec, execDecTruncated, hesc]
    exact innerRow_alike h rfl (decTruncated_alike h)
  | rxRead r =>
    simp only [exec, execRxRead, h.1.1.1]
    exact receiveRow_alike h (fun _ => rfl) (rxRead_alike r)
  | rxStart =>
    simp only [exec, execRxStart]
    refine receiveRow_alike h (hrx · _) fun hr => ⟨?_, rfl⟩
    obtain ⟨houtside, ⟨_, hcnt, _, hstep⟩, hwalk⟩ := hr
    exact ⟨houtside, ⟨rfl, hcnt, rfl, hstep⟩, hwalk⟩
  | rxNoise b =>
    simp only [exec, execRxNoise]
    exact receiveRow_alike h (hrx · _) fun hr => ⟨hr, rfl⟩
  | rxEnd =>
    simp only [exec, execRxEnd]
    refine receiveRow_alike h (hrx · _) fun hr => ⟨hr, ?_⟩
    obtain ⟨_, ⟨_, _, hmem, _⟩, _⟩ := hr
    simp only [rxEndByte, hmem]
  | rxBody b =>
    simp only [exec, execRxBody]
    exact receiveRow_alike h (hrx · _) (rxBodyByte_alike b)

/-- A received byte offered outside a receive belongs to no row, whatever `RX_STATE` was left at. -/
theorem runOffered_rxByte_idle {s : State} (b : Byte) (hb : s.busy = false) :
    runOffered (.rxByte b) s = .refused .outOfContext := by
  have hrec : s.receiving = false := by simp [State.receiving, hb]
  rw [runOffered_instr (i := decodeRxByte s.rxState b) rfl]
  unfold decodeRxByte
  split <;> split <;> simp [exec, execRxStart, execRxNoise, execRxEnd, execRxBody, receiveRow, *]

/-- Only a received byte is decoded by `RX_STATE` (30_encoding.md R46). -/
theorem decode_congr {c c' : Context} {e : Encoded} (hesc : c.escPend = c'.escPend)
    (hrx : (∃ b, e = .rxByte b) → c.rxState = c'.rxState) : decode c e = decode c' e := by
  cases e with
  | rxByte b => simp only [decode, hrx ⟨b, rfl⟩]
  | decByte | decEnd => simp only [decode, hesc]
  | cmd | stage | txSymbol | txDelim => rfl

theorem runOffered_alike {s t : State} (e : Encoded) (h : sameVisible s t) :
    answersAlike sameVisible (runOffered e s) (runOffered e t) := by
  have hesc := escPending_congr h
  obtain ⟨⟨⟨_, _, hbusy, _⟩, hreceive⟩, _⟩ := id h
  have hdecoded (hrx : (∃ b, e = .rxByte b) → s.rxState = t.rxState) :
      answersAlike sameVisible (runOffered e s) (runOffered e t) := by
    have hd : decode (contextOf s) e = decode (contextOf t) e := decode_congr hesc hrx
    unfold runOffered
    rw [← hd]
    split
    · exact exec_alike _ h
    · rfl
  cases hb : s.busy
  · by_cases he : ∃ b, e = .rxByte b
    · obtain ⟨b, rfl⟩ := he
      rw [runOffered_rxByte_idle b hb, runOffered_rxByte_idle b (hbusy ▸ hb)]
      rfl
    · exact hdecoded fun hrx => absurd hrx he
  · exact hdecoded fun _ => (hreceive hb).1

theorem runOwnRead_alike {s t : State} (h : sameVisible s t) (hb : s.busy = true) :
    answersAlike sameVisible (runOwnRead s) (runOwnRead t) := by
  obtain ⟨hread, hresult⟩ := streamRead_sameReceiving (sameReceiving_of_busy h hb)
  unfold runOwnRead
  rw [← hresult]
  exact exec_alike _ (sameVisible_of_receiving hread)

theorem setCaller_alike {s t : State} (rest : List CallerEvent) (h : sameVisible s t) :
    sameVisible (setCaller rest s) (setCaller rest t) := by
  obtain ⟨⟨⟨hcfg, hopened, hbusy, hrsp, hline, _⟩, hreceive⟩, hwalk⟩ := h
  exact ⟨⟨⟨hcfg, hopened, hbusy, hrsp, hline, rfl⟩, hreceive⟩, hwalk⟩

theorem applyReset_alike {s t : State} (h : sameOutside s t) : sameVisible (applyReset s) (applyReset t) := by
  obtain ⟨hcfg, _, _, hrsp, hline, hcaller⟩ := h
  exact ⟨sameRunning_of_idle ⟨hcfg, rfl, rfl, hrsp, hline, hcaller⟩ rfl, rfl, fun _ => ⟨rfl, rfl⟩⟩

/-- Machines alike in all that may be read take every step alike, whatever the caller's next event. -/
theorem step_alike {s t : State} (h : sameVisible s t) : answersAlike sameVisible (step s) (step t) := by
  obtain ⟨⟨⟨_, _, hbusy, _, _, hcaller⟩, _⟩, _⟩ := id h
  have hrest (rest : List CallerEvent) := setCaller_alike rest h
  cases hc : s.caller with
  | nil =>
    rw [step_of_nothing hc, step_of_nothing (hcaller ▸ hc), ← hbusy]
    split
    · exact runOwnRead_alike h ‹_›
    · exact h
  | cons event rest =>
    have hc' := hcaller ▸ hc
    cases event with
    | reset =>
      rw [step_of_reset hc, step_of_reset hc']
      exact applyReset_alike (hrest rest).1.1
    | tick =>
      rw [step_of_tick hc, step_of_tick hc', ← hbusy]
      split
      · exact runOwnRead_alike (hrest rest) ‹_›
      · exact hrest rest
    | inner e =>
      rw [step_of_inner hc, step_of_inner hc']
      exact runOffered_alike e (hrest rest)
    | force c =>
      rw [step_of_force hc, step_of_force hc']
      exact runOffered_alike _ (hrest rest)
    | call c =>
      rw [step_of_call hc, step_of_call hc', ← hbusy]
      split
      · exact runOwnRead_alike h ‹_›
      · exact runOffered_alike _ (hrest rest)

end Sys2Proof.Machine

namespace Sys2Proof.Proofs

open Sys2Proof.Machine

/-- Settles O16: `command_alike`, less what it says of a walk of decoder rows. -/
theorem commandsSeeNothingEarlierOnesLeft : Obligations.CommandsSeeNothingEarlierOnesLeft :=
  fun _ _ _ hi _ h => answersAlike_mono (command_alike hi h) fun _ _ huv => huv.1

/-- Settles O60: `step_alike`, through every row and every event of the caller. -/
theorem everyStepKeepsMachinesAlike : Obligations.EveryStepKeepsMachinesAlike :=
  fun _ _ h => step_alike h

end Sys2Proof.Proofs

/-! PROOFS. The transport and the capture buffer under a row and under a step: which row calls the transport and when
(20_memory.md R30, R31, R35, 43_exchange.md R78), what a read takes from the queue, and which bytes of the buffer a row
can change (R26, R27). -/

namespace Sys2Proof.Machine

open Sys2Proof.Safety

/-! ### The calls of a row and of a step -/

@[simp] theorem resume_line (s : State) (y : RxYield) : (resume (s, y)).line = s.line := by
  cases y with
  | goOn => rfl
  | raised f => simp
  | done body =>
    by_cases h : s.exchStep = 4#3
    · obtain ⟨_, _, _, _, _, hline, _⟩ := exchangeTail_effect body (receiveInit s)
      simp [resume_done_exchange body h, hline]
    · simp [resume_done_receive body h]

/-- OPEN makes one call, an open. -/
theorem openAnswered_log (a : OpenArgs) (s : State) :
    ∃ r, (openAnswered (streamOpen a s)).line.log = .opened a r :: s.line.log := by
  refine ⟨s.line.openNext.1, ?_⟩
  obtain ⟨_, h⟩ | ⟨_, _, h⟩ := openAnswered_cases a s <;> rw [h] <;> simp

/-- The head of an EXCHANGE makes no call without a request, and else one write; the operation goes on exactly if the
whole frame was accepted (43_exchange.md R76). -/
theorem exchangeHead_log (q : List Byte) (s : State) (hb : s.busy = true) :
    (exchangeHead q s).line = s.line ∨
      ∃ bs w, (exchangeHead q s).line.log = .wrote bs w :: s.line.log ∧
        ((exchangeHead q s).busy = true ↔ w = .written bs.length) := by
  obtain ⟨_, _, _, _, _, ⟨_, hfail⟩ | ⟨_, frame, w, _, hline, _, hwrite⟩⟩ := exchangeHead_cases q s
  · left
    rw [hfail]
    rfl
  · refine .inr ⟨frame, w, by simp [hline], ?_⟩
    obtain ⟨hw, hbusy, _⟩ | ⟨hw, hbusy, _⟩ := hwrite <;> simp [hw, hbusy, hb]

/-- A row leaves the transport as it is, but for OPEN and EXCHANGE, which make one call, on an idle block. -/
theorem exec_call {i : Instr} {s t : State} (h : exec i s = .next t) :
    t.line = s.line ∨
      (∃ a r, i = .openStream a ∧ s.busy = false ∧ s.opened = false ∧
        t.line.log = .opened a r :: s.line.log) ∨
      (∃ q bs w, i = .exchange q ∧ s.busy = false ∧ s.opened = true ∧ t.line.log = .wrote bs w :: s.line.log ∧
        (t.busy = true ↔ w = .written bs.length)) := by
  cases exec_effect h with
  | concludes v u _ _ writes _ => rw [writes]; simp
  | quiet bs p w _ => exact .inl rfl
  | receives m st n y _ _ _ _ => simp
  | begins _ _ _ => exact .inl rfl
  | exchanges q row idle isOpen =>
    obtain hnone | ⟨bs, w, hlog, hgoes⟩ := exchangeHead_log q (setBusy true s) rfl
    · exact .inl hnone
    · exact .inr (.inr ⟨q, bs, w, row, idle, isOpen, hlog, hgoes⟩)
  | opens a row idle closed =>
    obtain ⟨r, hlog⟩ := openAnswered_log a (setBusy true s)
    exact .inr (.inl ⟨a, r, row, idle, closed, hlog⟩)

theorem exec_line {i : Instr} {s t : State} (h : exec i s = .next t) (ho : ∀ a, i ≠ .openStream a)
    (hx : ∀ q, i ≠ .exchange q) : t.line = s.line := by
  obtain hline | ⟨a, _, hi, _⟩ | ⟨q, _, _, hi, _⟩ := exec_call h
  · exact hline
  · exact absurd hi (ho a)
  · exact absurd hi (hx q)

/-- The step of a receive makes one call, the read whose result RX_READ judges. -/
theorem ownRead_log {s t : State} (h : exec (.rxRead (streamRead s).2) (streamRead s).1 = .next t) :
    t.line.log = .read s.cfg.readCapacity (streamRead s).2 :: s.line.log := by
  rw [exec_line h (by simp) (by simp)]
  simp

/-! ### What a read takes from the queue -/

/-- Cut or whole, a result's bytes are those handed over, then those that stay. -/
theorem splitRead_dataOf (cap : Nat) (r : ReadResult) :
    dataOf (splitRead cap r).1 ++ ((splitRead cap r).2.map dataOf).flatten = dataOf r := by
  cases r with
  | error e => rfl
  | bytes bs =>
    by_cases h : bs.length ≤ cap
    · simp [splitRead, dataOf, h, List.take_of_length_le h]
    · simp [splitRead, dataOf, h]

theorem streamRead_within (s : State) : (streamRead s).2.within s.cfg.readCapacity = true :=
  read_within _ _

/-- A read of a scripted queue: the next result, cut to `READ_CAPACITY`, its rest back in front (log 4). -/
theorem read_queue (cap : Nat) {t : Transport} {r : ReadResult} {rest : List ReadResult} (ht : t.reads = r :: rest) :
    t.read cap = ((splitRead cap r).1, { t with reads := (splitRead cap r).2 ++ rest }) := by
  simp [Transport.read, ht]

theorem streamRead_dataOf {s : State} {r : ReadResult} {rest : List ReadResult} (hq : s.line.reads = r :: rest) :
    dataOf (streamRead s).2 ++ ((streamRead s).1.line.reads.map dataOf).flatten =
      (s.line.reads.map dataOf).flatten := by
  rw [streamRead_result, streamRead_line, note_reads, read_queue _ hq, hq]
  simp [← splitRead_dataOf s.cfg.readCapacity r]

/-! ### The bytes of the capture buffer -/

/-- Outside a receive only the two rows that begin one write the capture buffer. -/
theorem exec_mem_idle {i : Instr} {s t : State} (h : exec i s = .next t) (hb : s.busy = false)
    (hr : i ≠ .receiveFrame) (hx : ∀ q, i ≠ .exchange q) : t.mem = s.mem := by
  cases exec_effect h with
  | concludes v u _ _ writes _ => rw [conclude_mem, writes]; simp
  | quiet bs p w _ => rfl
  | receives m st n y running _ _ _ => simp [State.receiving, hb] at running
  | begins row _ _ => exact absurd row hr
  | exchanges q row _ _ => exact absurd row (hx q)
  | opens a _ _ _ => obtain ⟨_, hopen⟩ | ⟨_, _, hopen⟩ := openAnswered_cases a (setBusy true s) <;> simp [hopen]

/-- RX_NOISE changes nothing at all. -/
theorem exec_rxNoise_next {b : Byte} {s t : State} :
    exec (.rxNoise b) s = .next t ↔
      b ≠ START ∧ s.receiving = true ∧ s.rxState = .waitingForStart ∧ s = t := by
  simp [exec, execRxNoise, receiveRow_next, rxNoiseByte]

/-- RX_BODY is the receive machine's byte, inside a capture. -/
theorem exec_rxBody_next {b : Byte} {s t : State} :
    exec (.rxBody b) s = .next t ↔
      b ≠ END ∧ s.receiving = true ∧ s.rxState = .capturing ∧ resume (rxByte b s) = t := by
  simp only [exec, execRxBody, receiveRow_next, bne_iff_ne, ne_eq, beq_iff_eq]
  refine and_congr_right fun hb => and_congr_right fun _ => and_congr_right fun hr => ?_
  rw [rxByte_body hr hb]

/-- A body byte after which the receive goes on was appended. -/
theorem exec_rxBody_goesOn {b : Byte} {s t : State} (h : exec (.rxBody b) s = .next t) (ht : t.busy = true) :
    t = bufAppend b s := by
  obtain ⟨hb, _, hr, rfl⟩ := exec_rxBody_next.mp h
  cases hf : captureFull s.cfg.maxBody s.mem
  · rw [rxByte_fits hr hb hf]; rfl
  · simp [rxByte_full hr hb hf] at ht

end Sys2Proof.Machine

namespace Sys2Proof.Proofs

open Sys2Proof.Machine Sys2Proof.Safety

/-- Settles O12: the calls of a row, `exec_call`, and the read of a receive's own step. -/
theorem oneTransportCallAStepWriteBeforeReads : Obligations.OneTransportCallAStepWriteBeforeReads := by
  intro s t h
  obtain ⟨rest, _, rfl⟩ | ⟨i, rest, hrow⟩ | ⟨hbusy, rest, hread⟩ | ⟨_, rest, rfl⟩ := step_cases h
  · exact .inl rfl
  · obtain hline | ⟨a, r, _, hidle, hclosed, hlog⟩ | ⟨q, bs, w, _, hidle, hopen, hlog, hgoes⟩ := exec_call hrow
    · exact .inl (congrArg Transport.log hline)
    · exact .inr ⟨_, hlog, fun _ _ _ => ⟨hidle, hclosed⟩, by simp, by simp⟩
    · refine .inr ⟨_, hlog, by simp, ?_, by simp⟩
      rintro _ _ ⟨⟩
      exact ⟨hidle, hopen, hgoes⟩
  · refine .inr ⟨_, ownRead_log (s := setCaller rest s) hread, by simp, by simp, ?_⟩
    rintro _ _ ⟨⟩
    exact ⟨hbusy, rfl, streamRead_within _⟩
  · exact .inl rfl

/-- Settles O17: `exec_line`. -/
theorem otherRowsLeaveTheTransportAlone : Obligations.OtherRowsLeaveTheTransportAlone :=
  fun _ _ _ h ho hx => exec_line h ho hx

/-- Settles O59: what `splitRead` hands over and what it leaves queued. -/
theorem readsConsumeWhatTheyReturn : Obligations.ReadsConsumeWhatTheyReturn := by
  intro s
  refine ⟨streamRead_within s, fun r rest hq => ⟨streamRead_dataOf hq, fun hw => ?_⟩⟩
  rw [streamRead_scripted hq hw]
  exact ⟨rfl, rfl⟩

/-- Settles O18: idle rows and RX_NOISE keep the buffer, and RX_BODY appends to it. -/
theorem memoryFrame : Obligations.MemoryFrame := by
  refine ⟨?idle, ?noise, ?body⟩
  case idle =>
    intro i s t h hb hr hx
    exact memRead_of_mem_eq s t (exec_mem_idle h hb hr hx)
  case noise =>
    intro b s t h
    obtain ⟨_, _, _, rfl⟩ := exec_rxNoise_next.mp h
    exact fun _ => rfl
  case body =>
    intro b s t h ht hlen
    rw [exec_rxBody_goesOn h ht]
    exact ⟨memRead_bufAppend_new b s hlen, memRead_bufAppend_old b s hlen⟩

end Sys2Proof.Proofs

/-! PROOFS. The exact next states of APPEND_CRC (40_checksum.md R58), of the byte classes RX_START, RX_NOISE and RX_BODY
(42_receive.md R68), of OPEN (43_exchange.md R75), and of the head of an EXCHANGE (R76). -/

namespace Sys2Proof.Machine

open Sys2Proof.Safety

/-! ### APPEND_CRC -/

theorem lo_eq_setWidth (v : Half) : lo v = v.setWidth 8 := by
  ext i
  simp [lo]

theorem hi_eq_setWidth (v : Half) : hi v = (v >>> 8).setWidth 8 := by
  ext i
  simp [hi]

theorem setBusy_idle {s : State} (h : s.busy = false) : setBusy false s = s := by
  rw [← h]; rfl

theorem computeCrc_nonEmpty {data : List Byte} (s : State) (h : data ≠ []) :
    computeCrc data s = setCrcAcc (crc16 data) s := by
  simp [computeCrc, h]

theorem exec_appendCrc {p : List Byte} {s : State} (hb : s.busy = false)
    (ha : s.cfg.maxPayload.admits p.length = true) (hp : p ≠ []) :
    exec (.appendCrc p) s =
      .next (setCrcAcc (crc16 p) (setRsp (⟨0#4, p ++ crc16LE p⟩ :: s.rsp) s)) := by
  simp only [exec, execAppendCrc, acceptBytes_idle _ hb ha, appendCrc_ok hp, computeCrc_nonEmpty _ hp]
  calc Host.Outcome.next (conclude (.ok (p ++ crc16LE p)) (setCrcAcc (crc16 p) (setBusy true s)))
      = .next (setCrcAcc (crc16 p) (setRsp (⟨0#4, p ++ crc16LE p⟩ :: s.rsp) (setBusy false s))) := rfl
    _ = _ := by rw [setBusy_idle hb]

/-! ### The byte classes of a receive -/

theorem exec_rxStart {s : State} (h : s.receiving = true) (hr : s.rxState = .waitingForStart) :
    exec .rxStart s = .next (setRxState .capturing (bufClear s)) := by
  simp [exec, execRxStart, hr, h, rxStartByte]

/-! ### OPEN -/

theorem exec_openStream {s : State} (a : OpenArgs) (hb : s.busy = false) (hc : s.opened = false) :
    exec (.openStream a) s = .next (openAnswered (streamOpen a (setBusy true s))) := by
  simp [exec, execOpenStream, hb, hc]

/-- A scripted answer is the transport's, and a handle leaves it with the settings it was given. -/
theorem streamOpen_scripted {s : State} (a : OpenArgs) {r : OpenResult} {os : List OpenResult}
    (h : s.line.opens = r :: os) :
    streamOpen a s = (setLine (Transport.note (.opened a r) ({ s.line with opens := os }.settle a r)) s, r) := by
  simp [streamOpen, Transport.openNext, h]

/-- OPEN with a handle as the scripted answer. -/
theorem exec_openStream_handle {s : State} (a : OpenArgs) {os : List OpenResult} (hb : s.busy = false)
    (hc : s.opened = false) (h : s.line.opens = .handle :: os) :
    exec (.openStream a) s = .next { s with
      opened := true, rsp := ⟨0#4, []⟩ :: s.rsp,
      line := { s.line with opens := os, settings := some a, log := .opened a .handle :: s.line.log } } := by
  rw [exec_openStream a hb hc, streamOpen_scripted (s := setBusy true s) a h, openAnswered_handle]
  conv_rhs => rw [← setBusy_idle hb]
  rfl

/-- OPEN with an error as the scripted answer. -/
theorem exec_openStream_error {s : State} (a : OpenArgs) {e : TpError} {os : List OpenResult} (hb : s.busy = false)
    (hc : s.opened = false) (h : s.line.opens = .error e :: os) :
    exec (.openStream a) s = .next { s with
      exchStep := 0#3, rsp := ⟨2#4, []⟩ :: s.rsp,
      line := { s.line with opens := os, log := .opened a (.error e) :: s.line.log } } := by
  rw [exec_openStream a hb hc, streamOpen_scripted (s := setBusy true s) a h, openAnswered_error]
  conv_rhs => rw [← setBusy_idle hb]
  rfl

/-! ### The head of an EXCHANGE -/

@[simp] theorem write_opens (len : Nat) (t : Transport) : (t.write len).2.opens = t.opens := by
  unfold Transport.write; split <;> rfl

@[simp] theorem write_settings (len : Nat) (t : Transport) : (t.write len).2.settings = t.settings := by
  unfold Transport.write; split <;> rfl

@[simp] theorem exchangeWritten_inter (len : Nat) (s : State) (w : WriteResult) :
    (exchangeWritten len (s, w)).inter = s.inter := by
  simp only [exchangeWritten]; split <;> simp

@[simp] theorem exchangeWritten_crcAcc (len : Nat) (s : State) (w : WriteResult) :
    (exchangeWritten len (s, w)).crcAcc = s.crcAcc := by
  simp only [exchangeWritten]; split <;> simp

@[simp] theorem exchangeSend_inter (f : List Byte) (s : State) :
    (exchangeSend f s).inter = { s.inter with f := f } :=
  (exchangeWritten_inter _ _ _).trans (by simp)

@[simp] theorem exchangeSend_crcAcc (f : List Byte) (s : State) : (exchangeSend f s).crcAcc = s.crcAcc :=
  (exchangeWritten_crcAcc _ _ _).trans (by simp)

/-- The request's `X`, `F` and checksum stand after the head, whatever the write's answer (log 8). -/
theorem exchangeHead_transients {q : List Byte} (h : q ≠ []) (s : State) :
    (exchangeHead q s).inter = { s.inter with x := q ++ crc16LE q, f := wrap (escape (q ++ crc16LE q)) } ∧
      (exchangeHead q s).crcAcc = crc16 q := by
  rw [exchangeHead_send h]
  simp [computeCrc_nonEmpty _ h]

theorem exec_exchange {q : List Byte} {s : State} (hb : s.busy = false) (ho : s.opened = true)
    (ha : s.cfg.maxPayload.admits q.length = true) :
    exec (.exchange q) s = .next (exchangeHead q (setBusy true s)) := by
  simp [exec, execExchange, hb, ha, ho]

end Sys2Proof.Machine

namespace Sys2Proof.Proofs

open Sys2Proof.Machine Sys2Proof.Safety

/-- Settles O24: `exec_appendCrc`, with the checksum's bytes written as a truncation and a shift. -/
theorem appendCrcResult : Obligations.AppendCrcResult := by
  intro p s hb ha hp
  rw [exec_appendCrc hb ha hp, crc16LE, lo_eq_setWidth, hi_eq_setWidth]
  rfl

/-- Settles O40: the two classes of a receive that waits. -/
theorem waitingClassResults : Obligations.WaitingClassResults :=
  fun _ hs hr => ⟨exec_rxStart hs hr, fun _ hb => exec_rxNoise_next.mpr ⟨hb, hs, hr, rfl⟩⟩

/-- Settles O41: what the receive machine makes of a body byte, by whether the buffer is full. -/
theorem bodyByteIsAppended : Obligations.BodyByteIsAppended := by
  intro s b hs hr hb
  refine ⟨fun hroom => ?fits, fun hfull => ?full⟩
  case fits =>
    refine exec_rxBody_next.mpr ⟨hb, hs, hr, ?_⟩
    rw [rxByte_fits hr hb ((captureFull_false_iff _ _).mpr hroom)]; rfl
  case full =>
    refine exec_rxBody_next.mpr ⟨hb, hs, hr, ?_⟩
    rw [rxByte_full hr hb ((captureFull_iff _ _).mpr hfull)]; rfl

/-- Settles O51: the scripted answers, and for a free one the two cases of `openAnswered_cases`. -/
theorem openResult : Obligations.OpenResult := by
  intro a s hb hc
  refine ⟨fun os h => exec_openStream_handle a hb hc h, fun e os h => exec_openStream_error a hb hc h,
    fun _ => ⟨_, exec_openStream a hb hc, ?_⟩⟩
  obtain ⟨hr, h⟩ | ⟨e, hr, h⟩ := openAnswered_cases a (setBusy true s) <;> rw [h]
  · exact .inl ⟨rfl, rfl, by simpa [Transport.note] using hr⟩
  · exact .inr ⟨hc, rfl, e, by simpa [Transport.note] using hr⟩

/-- Settles O52: `exchangeHead_cases` for a request, with the registers it leaves. -/
theorem exchangeWritesOnceThenReceives : Obligations.ExchangeWritesOnceThenReceives := by
  intro q s hb ho ha hq
  obtain ⟨hcfg, hopened, hcaller, hout, hesc, ⟨hnil, _⟩ | ⟨_, frame, w, hframe, hline, hw, hwrite⟩⟩ :=
    exchangeHead_cases q (setBusy true s)
  · exact absurd hnil hq
  obtain ⟨hinter, hcrc⟩ := exchangeHead_transients hq (setBusy true s)
  obtain rfl : wrap (escape (q ++ crc16LE q)) = frame := by simpa [encodeRequest_ok hq] using hframe
  refine ⟨_, _, w, hframe, exec_exchange hb ho ha, by simp [hline], by simp [hline], hopened.trans ho,
    by simp [hinter], by simp [hinter], hcrc, hcfg, hcaller, hout, hesc, by simp, by simp [hinter], by simp [hinter],
    by simp [hline], by simp [hline], ?scripted, ?full, ?short⟩
  case scripted =>
    intro w' ws hws
    have hscript := write_scripted (t := (setBusy true s).line) (len := (wrap (escape (q ++ crc16LE q))).length) hws
    rw [hline, note_writes, hw, hscript]
    exact ⟨rfl, rfl⟩
  case full =>
    intro hfull
    obtain ⟨_, hbusy, hstep, hrest, hrsp⟩ | ⟨hshort, _⟩ := hwrite
    · exact ⟨hbusy, hstep, hrest, hrsp⟩
    · exact absurd hfull hshort
  case short =>
    intro hshort
    obtain ⟨hfull, _⟩ | ⟨_, hbusy, hstep, hrsp, hrx, hcnt, hmem⟩ := hwrite
    · exact absurd hfull hshort
    · exact ⟨hbusy, hstep, hrsp, hrx, hcnt, hmem⟩

end Sys2Proof.Proofs

/-! PROOFS. A receive over many reads (42_receive.md R69 to R72): bytes may be cut anywhere; the machine's run over the
reads that `receiveLoop` consumes ends as the loop does; and the loop finds the body of a frame behind noise, however
the bytes are cut into reads. -/

namespace Sys2Proof.Machine

open Sys2Proof.Safety

/-! ### Cutting the bytes of a receive -/

theorem rxBytes_append_goOn {xs ys : List Byte} {s : State} (h : (rxBytes xs s).2 = .goOn) :
    rxBytes (xs ++ ys) s = rxBytes ys (rxBytes xs s).1 := by
  induction xs generalizing s with
  | nil => rfl
  | cons b xs ih =>
    by_cases hb : (rxByte b s).2 = .goOn
    · rw [rxBytes_cons_continue hb] at h ⊢
      rw [List.cons_append, rxBytes_cons_continue hb, ih h]
    · rw [rxBytes_cons_end hb] at h
      exact absurd h hb

theorem rxBytes_append_end {xs ys : List Byte} {s : State} (h : (rxBytes xs s).2 ≠ .goOn) :
    rxBytes (xs ++ ys) s = rxBytes xs s := by
  induction xs generalizing s with
  | nil => exact absurd rfl h
  | cons b xs ih =>
    by_cases hb : (rxByte b s).2 = .goOn
    · rw [rxBytes_cons_continue hb] at h ⊢
      rw [List.cons_append, rxBytes_cons_continue hb, ih h]
    · rw [List.cons_append, rxBytes_cons_end hb, rxBytes_cons_end hb]

/-- Bytes that end nothing have no part at their front that does. -/
theorem rxBytes_goOn_of_prefix {xs ys : List Byte} {s : State} (hp : xs <+: ys) (h : (rxBytes ys s).2 = .goOn) :
    (rxBytes xs s).2 = .goOn := by
  obtain ⟨zs, rfl⟩ := hp
  by_contra hx
  rw [rxBytes_append_end hx] at h
  exact hx h

/-! ### Noise, a frame's body, and its end -/

/-- Noise and an unfinished frame leave the receive capturing, with the body so far in the buffer. -/
theorem rxBytes_unfinished {g b : List Byte} {s : State} (hr : s.rxState = .waitingForStart) (hg : START ∉ g)
    (hb : END ∉ b) (hroom : s.cfg.maxBody.admits b.length = true) :
    rxBytes (g ++ [START] ++ b) s =
      (setMem { capBuf := b, capLen := b.length } (setRxState .capturing s), .goOn) := by
  have hnoise := rxBytes_noise hr hg
  have hstart : rxByte START s = (setRxState .capturing (bufClear s), .goOn) := rxByte_start hr
  have hbody := rxBytes_body (s := setRxState .capturing (bufClear s)) rfl hb (by simpa using hroom)
  rw [List.append_assoc, rxBytes_append_goOn (by rw [hnoise]), hnoise, List.singleton_append,
    rxBytes_cons_continue (by rw [hstart]), hstart, hbody]
  simp [setMem, bufClear, setRxState]

/-- The end delimiter behind them completes the body, and nothing after it is looked at. -/
theorem rxBytes_finished {g b : List Byte} {s : State} (t : List Byte) (hr : s.rxState = .waitingForStart)
    (hg : START ∉ g) (hb : END ∉ b) (hroom : s.cfg.maxBody.admits b.length = true) :
    (rxBytes (g ++ [START] ++ b ++ ([END] ++ t)) s).2 = .done b := by
  have hopen := rxBytes_unfinished hr hg hb hroom
  have hend := rxByte_end (s := setMem { capBuf := b, capLen := b.length } (setRxState .capturing s)) rfl
  rw [rxBytes_append_goOn (by rw [hopen]), hopen, List.singleton_append,
    rxBytes_cons_end (by simp [hend]), hend]
  rfl

/-! ### The loop over reads that end nothing -/

theorem receiveLoop_cons_goOn {r : ReadResult} {rs : List ReadResult} {s : State} (h : (rxRead r s).2 = .goOn) :
    receiveLoop (r :: rs) s = receiveLoop rs (rxRead r s).1 := by
  rcases hr : rxRead r s with ⟨u, y⟩
  obtain rfl : y = .goOn := by simpa [hr] using h
  simp [receiveLoop, hr]

theorem receiveLoop_cons_done {r : ReadResult} {rs : List ReadResult} {s : State} {body : List Byte}
    (h : (rxRead r s).2 = .done body) : receiveLoop (r :: rs) s = some (.ok body, rs) := by
  rcases hr : rxRead r s with ⟨u, y⟩
  obtain rfl : y = .done body := by simpa [hr] using h
  simp [receiveLoop, hr]

theorem receiveLoop_cons_raised {r : ReadResult} {rs : List ReadResult} {s : State} {f : Failure}
    (h : (rxRead r s).2 = .raised f) : receiveLoop (r :: rs) s = some (.fail f [], rs) := by
  rcases hr : rxRead r s with ⟨u, y⟩
  obtain rfl : y = .raised f := by simpa [hr] using h
  simp [receiveLoop, hr]

/-- A read that delivers no byte counts as empty, unless it failed under the fatal policy. -/
theorem rxRead_no_data {r : ReadResult} {s : State} (h : dataOf r = [])
    (hp : s.cfg.readErrorPolicy = .fatal → ∃ bs, r = .bytes bs) : rxRead r s = rxEmpty s := by
  obtain ⟨⟨e, rfl⟩, hfatal, _⟩ | ⟨_, hr⟩ | ⟨bs, rfl, hne, _⟩ := rxRead_cases r s
  · obtain ⟨bs, hbs⟩ := hp hfatal
    cases hbs
  · exact hr
  · exact absurd h hne

/-- A read that delivers bytes is its bytes judged from a counter at 0. -/
theorem rxRead_data {r : ReadResult} (s : State) (h : dataOf r ≠ []) :
    rxRead r s = (setEmptyCnt 0#2 (rxBytes (dataOf r) s).1, (rxBytes (dataOf r) s).2) := by
  cases r with
  | error e => exact absurd rfl h
  | bytes bs => rw [rxRead_nonEmpty (bs := bs) s h, rxBytes_setEmptyCnt]; rfl

/-- Three empty sequences in a row are not hidden by what stands before them. -/
theorem noThreeEmpty_of_append (l : List (List Byte)) {m : List (List Byte)} (h : noThreeEmpty (l ++ m) = true) :
    noThreeEmpty m = true := by
  induction l with
  | nil => exact h
  | cons a l ih =>
    refine ih ?_
    rcases hl : l ++ m with _ | ⟨b, _ | ⟨c, rest⟩⟩
    · rfl
    · rfl
    · rw [List.cons_append, hl] at h
      simp only [noThreeEmpty, Bool.and_eq_true] at h
      exact h.2

/-- Reads whose bytes end nothing, and of which no three in a row are empty, are all consumed by the loop: it has
judged their bytes. `k` empty reads stand before them, and the counter holds their number. -/
theorem receiveLoop_passes {init : List ReadResult} {s : State} {k : Nat} (tail : List ReadResult) (hk : k ≤ 2)
    (hcnt : s.emptyCnt = BitVec.ofNat 2 k)
    (hp : s.cfg.readErrorPolicy = .fatal → ∀ r ∈ init, ∃ bs, r = .bytes bs)
    (hgo : (rxBytes (init.map dataOf).flatten s).2 = .goOn)
    (hn : noThreeEmpty (List.replicate k [] ++ init.map dataOf) = true) :
    ∃ n, receiveLoop (init ++ tail) s =
      receiveLoop tail (setEmptyCnt n (rxBytes (init.map dataOf).flatten s).1) := by
  induction init generalizing s k with
  | nil => exact ⟨s.emptyCnt, rfl⟩
  | cons r init ih =>
    have hp' (hf : s.cfg.readErrorPolicy = .fatal) : ∀ r ∈ init, ∃ bs, r = .bytes bs :=
      fun r hr => hp hf r (List.mem_cons_of_mem _ hr)
    rw [List.map_cons] at hgo hn ⊢
    rw [List.flatten_cons] at hgo ⊢
    by_cases hd : dataOf r = []
    · rw [hd] at hgo hn ⊢
      rw [List.nil_append] at hgo ⊢
      have hk2 : k ≠ 2 := by
        rintro rfl
        simp [List.replicate, noThreeEmpty] at hn
      have hread : rxRead r s = (setEmptyCnt (s.emptyCnt + 1#2) s, .goOn) := by
        rw [rxRead_no_data hd fun hf => hp hf r List.mem_cons_self]
        refine rxEmpty_continue ?_
        rw [hcnt]
        obtain rfl | rfl : k = 0 ∨ k = 1 := by omega
        · decide
        · decide
      obtain ⟨n, hloop⟩ := ih (s := setEmptyCnt (s.emptyCnt + 1#2) s) (k := k + 1) (by omega)
        (by simp [hcnt, BitVec.ofNat_add]) hp' (by rw [rxBytes_setEmptyCnt]; exact hgo)
        (by rwa [List.replicate_succ', List.append_assoc])
      refine ⟨n, ?_⟩
      rw [List.cons_append, receiveLoop_cons_goOn (by rw [hread]), hread, hloop, rxBytes_setEmptyCnt]
      rfl
    · have hhead := rxBytes_goOn_of_prefix (List.prefix_append _ _) hgo
      rw [rxBytes_append_goOn hhead] at hgo ⊢
      have hread : rxRead r s = (setEmptyCnt 0#2 (rxBytes (dataOf r) s).1, .goOn) := by
        rw [rxRead_data s hd, hhead]
      have hcfg : (rxBytes (dataOf r) s).1.cfg = s.cfg := by rw [rxBytes_frame]; rfl
      obtain ⟨n, hloop⟩ := ih (s := setEmptyCnt 0#2 (rxBytes (dataOf r) s).1) (k := 0) (by omega) rfl
        (by simpa [hcfg] using hp') (by rw [rxBytes_setEmptyCnt]; exact hgo)
        (noThreeEmpty_of_append (List.replicate k [] ++ [dataOf r]) (by simpa using hn))
      refine ⟨n, ?_⟩
      rw [List.cons_append, receiveLoop_cons_goOn (by rw [hread]), hread, hloop, rxBytes_setEmptyCnt]
      rfl

/-- The loop finds the body behind the noise, at the read that brings the end delimiter (42_receive.md R72): the bytes
of the reads before it end nothing, since it brings more than what follows the delimiter. -/
theorem receiveLoop_finds {s : State} {init : List ReadResult} {last : ReadResult} {g b t : List Byte}
    (hr : s.rxState = .waitingForStart) (hcnt : s.emptyCnt = 0#2)
    (hp : s.cfg.readErrorPolicy = .fatal → ∀ r ∈ init, ∃ bs, r = .bytes bs)
    (hdata : ((init ++ [last]).map dataOf).flatten = g ++ [START] ++ b ++ [END] ++ t)
    (ht : t.length < (dataOf last).length) (hg : START ∉ g) (hb : END ∉ b)
    (hroom : s.cfg.maxBody.admits b.length = true) (hn : noThreeEmpty (init.map dataOf) = true) :
    receiveLoop (init ++ [last]) s = some (.ok b, []) := by
  have hcut : (init.map dataOf).flatten ++ dataOf last = g ++ [START] ++ b ++ ([END] ++ t) := by
    simpa using hdata
  have hgo : (rxBytes (init.map dataOf).flatten s).2 = .goOn := by
    refine rxBytes_goOn_of_prefix (ys := g ++ [START] ++ b) ?_ (by rw [rxBytes_unfinished hr hg hb hroom])
    refine List.prefix_of_prefix_length_le ⟨_, hcut⟩ (List.prefix_append _ _) ?_
    have hlen := congrArg List.length hcut
    simp only [List.length_append, List.length_singleton] at hlen ⊢
    omega
  obtain ⟨n, hloop⟩ := receiveLoop_passes (k := 0) [last] (by omega) hcnt hp hgo hn
  have hlast : dataOf last ≠ [] := List.ne_nil_of_length_pos (by omega)
  have hdone := rxBytes_finished t hr hg hb hroom
  rw [← hcut, rxBytes_append_goOn hgo] at hdone
  rw [hloop, receiveLoop_cons_done]
  rw [rxRead_data _ hlast, rxBytes_setEmptyCnt]
  exact hdone

/-! ### The machine's run over the reads of a receive -/

/-- The transport takes no part in judging a read. -/
theorem rxRead_setLine (r : ReadResult) (l : Transport) (s : State) :
    rxRead r (setLine l s) = (setLine l (rxRead r s).1, (rxRead r s).2) := by
  obtain ⟨⟨_, hrx, hcnt, hmem⟩, hy⟩ := rxRead_congr r (s := setLine l s) (t := s) ⟨rfl, rfl, rfl, rfl⟩
  refine Prod.ext ?_ hy
  rw [rxRead_frame, hrx, hcnt, hmem]
  conv_rhs => rw [rxRead_frame]
  rfl

@[simp] theorem rxRead_cfg (r : ReadResult) (s : State) : (rxRead r s).1.cfg = s.cfg := by rw [rxRead_frame]; rfl

@[simp] theorem rxRead_rsp (r : ReadResult) (s : State) : (rxRead r s).1.rsp = s.rsp := by rw [rxRead_frame]; rfl

@[simp] theorem rxRead_caller (r : ReadResult) (s : State) : (rxRead r s).1.caller = s.caller := by
  rw [rxRead_frame]; rfl

@[simp] theorem rxRead_exchStep (r : ReadResult) (s : State) : (rxRead r s).1.exchStep = s.exchStep := by
  rw [rxRead_frame]; rfl

@[simp] theorem rxRead_receiving (r : ReadResult) (s : State) : (rxRead r s).1.receiving = s.receiving := by
  rw [rxRead_frame]; rfl

/-- The transport after a scripted read. -/
def lineAfter (r : ReadResult) (rest : List ReadResult) (s : State) : Transport :=
  Transport.note (.read s.cfg.readCapacity r) { s.line with reads := rest }

/-- The step of a receive on a scripted read that fits, with the transport's part set apart. -/
theorem step_scripted_read {s : State} {r : ReadResult} {rest : List ReadResult} (h : s.receiving = true)
    (hc : s.caller = []) (hq : s.line.reads = r :: rest) (hw : r.within s.cfg.readCapacity = true) :
    step s = .next (resume (setLine (lineAfter r rest s) (rxRead r s).1, (rxRead r s).2)) := by
  rw [step_read h hc hq hw, rxRead_setLine]
  rfl

/-- What the end of a receive that began in `s` leaves, when it has consumed `reads` and the operation answers `v`. -/
def receiveEnded (s t : State) (v : Verdict) (reads rest : List ReadResult) : Prop :=
  t.busy = false ∧ t.exchStep = 0#3 ∧ receiveAtRest t ∧ t.rsp = v.response :: s.rsp ∧ t.line.reads = rest ∧
    t.line.log = (reads.map (.read s.cfg.readCapacity)).reverse ++ s.line.log

/-- The read that ends a receive. -/
theorem step_read_ends {s : State} {r : ReadResult} {rest : List ReadResult} (h : s.receiving = true)
    (hc : s.caller = []) (hq : s.line.reads = r :: rest) (hw : r.within s.cfg.readCapacity = true)
    (hy : (rxRead r s).2 ≠ .goOn) :
    ∃ t, step s = .next t ∧ receiveEnded s t (endVerdict s (rxRead r s).2) [r] rest := by
  refine ⟨_, step_scripted_read h hc hq hw, ?_⟩
  have hstep : (setLine (lineAfter r rest s) (rxRead r s).1).exchStep = s.exchStep := rxRead_exchStep r s
  obtain ⟨hrsp, hbusy, hzero, _, _, hline, _, _, hrest⟩ := resume_effect (hstep ▸ (receiving_iff.mp h).2) hy
  refine ⟨hbusy, hzero, hrest, ?_, by rw [hline]; rfl, by rw [hline]; rfl⟩
  simpa [endVerdict, hstep] using hrsp

/-- How an operation ends whose receive loop ended with `v`: EXCHANGE runs its steps 5 and 6 on a body. -/
def closingVerdict (s : State) : Verdict → Verdict
  | .ok body => endVerdict s (.done body)
  | .fail f data => .fail f data

/-- The machine over the reads that the loop consumes ends as the loop does (43_exchange.md R79). -/
theorem receive_ends {reads rest : List ReadResult} {s : State} {v : Verdict} (h : s.receiving = true)
    (hc : s.caller = []) (hq : s.line.reads = reads ++ rest)
    (hw : ∀ r ∈ reads, r.within s.cfg.readCapacity = true) (hl : receiveLoop reads s = some (v, [])) :
    ∃ t, runsTo reads.length s t ∧ receiveEnded s t (closingVerdict s v) reads rest := by
  induction reads generalizing s with
  | nil => simp [receiveLoop] at hl
  | cons r reads ih =>
    obtain ⟨hwr, hws⟩ := List.forall_mem_cons.mp hw
    cases hy : (rxRead r s).2 with
    | goOn =>
      rw [receiveLoop_cons_goOn hy] at hl
      have hstep := step_scripted_read h hc hq hwr
      rw [hy, resume_continue] at hstep
      obtain ⟨t, hrun, hbusy, hzero, hrest, hrsp, hreads, hlog⟩ :=
        ih (s := setLine (lineAfter r (reads ++ rest) s) (rxRead r s).1) ((rxRead_receiving r s).trans h)
          ((rxRead_caller r s).trans hc) rfl (by simpa using hws)
          (by rw [← hl]; exact receiveLoop_congr reads ⟨rfl, rfl, rfl, rfl⟩)
      refine ⟨t, runsTo_succ hstep hrun, hbusy, hzero, hrest, ?_, hreads, ?_⟩
      · cases v <;> simpa [closingVerdict, endVerdict] using hrsp
      · simpa [lineAfter] using hlog
    | done body =>
      rw [receiveLoop_cons_done hy] at hl
      obtain ⟨rfl, rfl⟩ : Verdict.ok body = v ∧ reads = [] := by simpa using hl
      obtain ⟨t, hstep, hend⟩ := step_read_ends h hc hq hwr (by rw [hy]; simp)
      rw [hy] at hend
      exact ⟨t, runsTo_succ hstep (runsTo_zero t), hend⟩
    | raised f =>
      rw [receiveLoop_cons_raised hy] at hl
      obtain ⟨rfl, rfl⟩ : Verdict.fail f [] = v ∧ reads = [] := by simpa using hl
      obtain ⟨t, hstep, hend⟩ := step_read_ends h hc hq hwr (by rw [hy]; simp)
      rw [hy] at hend
      exact ⟨t, runsTo_succ hstep (runsTo_zero t), hend⟩

/-! ### RECEIVE_FRAME begins -/

theorem exec_receiveFrame {s : State} (hb : s.busy = false) (ho : s.opened = true) :
    exec .receiveFrame s = .next (receiveInit (setExchStep 0#3 (setBusy true s))) := by
  simp [exec, execReceiveFrame, hb, ho]

theorem decode_receiveFrame (ctx : Context) (d : DataIn) : decode ctx (.cmd ⟨4#3, d⟩) = .instr .receiveFrame := by
  cases d <;> rfl

theorem step_receiveFrame {s : State} {d : DataIn} (hb : s.busy = false) (ho : s.opened = true)
    (hc : s.caller = [.call ⟨4#3, d⟩]) :
    step s = .next (receiveInit (setExchStep 0#3 (setBusy true (setCaller [] s)))) :=
  (step_call hb hc (decode_receiveFrame _ d)).trans (exec_receiveFrame (s := setCaller [] s) hb ho)

/-- RECEIVE_FRAME over the reads that its loop consumes: the entry, then one step a read (42_receive.md R70, log 2). -/
theorem receiveFrame_ends {reads rest : List ReadResult} {s : State} {d : DataIn} {v : Verdict} (hb : s.busy = false)
    (ho : s.opened = true) (hc : s.caller = [.call ⟨4#3, d⟩]) (hq : s.line.reads = reads ++ rest)
    (hw : ∀ r ∈ reads, r.within s.cfg.readCapacity = true)
    (hl : receiveLoop reads (receiveInit s) = some (v, [])) :
    ∃ t, runsTo (reads.length + 1) s t ∧ receiveEnded s t v reads rest := by
  obtain ⟨t, hrun, hend⟩ :=
    receive_ends (s := receiveInit (setExchStep 0#3 (setBusy true (setCaller [] s)))) rfl rfl hq hw
      (by rw [← hl]; exact receiveLoop_congr reads ⟨rfl, rfl, rfl, rfl⟩)
  refine ⟨t, runsTo_succ (step_receiveFrame hb ho hc) hrun, ?_⟩
  cases v <;> exact hend

end Sys2Proof.Machine

namespace Sys2Proof.Proofs

open Sys2Proof.Machine Sys2Proof.Safety

/-- Settles O46: `rxBytes` over a concatenation. -/
theorem firstTerminalByteDecides : Obligations.FirstTerminalByteDecides :=
  fun _ _ _ => ⟨rxBytes_append_goOn, rxBytes_append_end⟩

/-- Settles O48: the loop finds the body, and the machine's run ends as the loop does. -/
theorem receiveResynchronises : Obligations.ReceiveResynchronises := by
  refine ⟨?receive, stripDelims_wrap⟩
  case receive =>
    intro s d init rest last g b t hb ho hc hq hw hp hdata ht hg hbody hroom hn
    have hl := receiveLoop_finds (s := receiveInit s) rfl rfl hp hdata ht hg hbody hroom hn
    obtain ⟨u, hrun, hbusy, _, hrest, hrsp, hreads, _⟩ := receiveFrame_ends hb ho hc hq hw hl
    exact ⟨u, by simpa using hrun, hbusy, hrsp, hreads, hrest⟩

end Sys2Proof.Proofs

/-! PROOFS. The decoder and the encoder, format by format (30_encoding.md R41, R43, R46, R47, R49, R50): what the
encoder writes decodes to its row, what decodes is encoded to the same word, and an escaped body has one reading (R53). -/

namespace Sys2Proof

/-! ### The byte classes of the receiver and of the decoder -/

theorem decodeRxByte_noise {b : Byte} (h : b ≠ START) : decodeRxByte .waitingForStart b = .rxNoise b := if_neg h

theorem decodeRxByte_body {b : Byte} (h : b ≠ END) : decodeRxByte .capturing b = .rxBody b := if_neg h

theorem decodeDecByte_marker : decodeDecByte false ESC = .decEsc := rfl

theorem decodeDecByte_literal {c : Byte} (h : c ≠ ESC) : decodeDecByte false c = .decLiteral c := if_neg h

theorem decodeDecByte_escaped (c : Byte) : decodeDecByte true c = .decEscaped c := rfl

/-! ### The transmit symbols -/

theorem decodeTxSymbol_literal {b : Byte} (rest : List Byte) (h : reserved b = false) :
    decodeTxSymbol (b :: rest) = (.instr (.literal b), rest) := by
  obtain ⟨⟨hs, he⟩, hm⟩ : (b ≠ START ∧ b ≠ END) ∧ b ≠ ESC := by simpa [reserved] using h
  simp [decodeTxSymbol, hs, he, hm]

theorem symbolOf_literal {b : Byte} (h : reserved b = false) : symbolOf b = .literal b := by
  obtain ⟨⟨hs, he⟩, hm⟩ : (b ≠ START ∧ b ≠ END) ∧ b ≠ ESC := by simpa [reserved] using h
  simp [symbolOf, hs, he, hm]

/-- The first symbol read from what the transmit side emits for a byte is that byte's, and nothing after it is touched
(R43, R53). -/
theorem decodeTxSymbol_escapeByte (b : Byte) (rest : List Byte) :
    decodeTxSymbol (Machine.escapeByte b ++ rest) = (.instr (symbolOf b), rest) := by
  obtain ⟨hr, hbytes⟩ | ⟨hr, _⟩ := Machine.escapeByte_cases b
  · rw [hbytes, symbolOf_literal hr]
    exact decodeTxSymbol_literal rest hr
  · obtain rfl | rfl | rfl := (Machine.reserved_iff b).mp hr <;> rfl

theorem decodeSymbols_escapeByte (fuel : Nat) (b : Byte) (rest : List Byte) :
    decodeSymbols (fuel + 1) (Machine.escapeByte b ++ rest) = (decodeSymbols fuel rest).map (symbolOf b :: ·) := by
  have hsym := decodeTxSymbol_escapeByte b rest
  obtain ⟨_, hbytes⟩ | ⟨_, hbytes⟩ := Machine.escapeByte_cases b <;>
    simp only [hbytes, List.cons_append, List.nil_append, decodeSymbols] at hsym ⊢ <;> rw [hsym]

/-- One symbol a byte, so the number of bytes is fuel enough. -/
theorem decodeSymbols_escape {x : List Byte} {fuel : Nat} (h : x.length ≤ fuel) :
    decodeSymbols fuel (Machine.escape x) = some (x.map symbolOf) := by
  induction x generalizing fuel with
  | nil => cases fuel <;> rfl
  | cons b x ih =>
    obtain ⟨fuel, rfl⟩ : ∃ n, fuel = n + 1 := ⟨fuel - 1, by simp at h; omega⟩
    rw [Machine.escape_cons, decodeSymbols_escapeByte, ih (by simpa using h)]
    rfl

/-! ### Decode after encode -/

/-- The byte classes and LITERAL need their operand and their context; every other row decodes from its word alone. -/
theorem decode_encode {cfg : Config} {ctx : Context} {i : Instr} (hw : i.wf cfg = true)
    (hc : i.inContext ctx = true) : decode ctx (encode i) = .instr i := by
  obtain ⟨rx, pending⟩ := ctx
  cases i with
  | appendCrc _ | encodeFrame _ | decodeFrame _ | verifyCrc _ | receiveFrame | exchange _ | openStream _
  | reservedOp7 => rfl
  | escape _ | wrap _ | stripDelims _ | rxRead _ => rfl
  | pairStart | pairEnd | pairEsc | frameStart | frameEnd => rfl
  | literal b =>
    have hb : reserved b = false := by simpa [Instr.wf] using hw
    simp [decode, encode, decodeTxSymbol_literal [] hb]
  | rxStart =>
    obtain rfl : rx = .waitingForStart := by simpa [Instr.inContext] using hc
    rfl
  | rxNoise b =>
    obtain rfl : rx = .waitingForStart := by simpa [Instr.inContext] using hc
    exact congrArg Decoded.instr (decodeRxByte_noise (by simpa [Instr.wf] using hw))
  | rxEnd =>
    obtain rfl : rx = .capturing := by simpa [Instr.inContext] using hc
    rfl
  | rxBody b =>
    obtain rfl : rx = .capturing := by simpa [Instr.inContext] using hc
    exact congrArg Decoded.instr (decodeRxByte_body (by simpa [Instr.wf] using hw))
  | decEsc =>
    obtain rfl : pending = false := by simpa [Instr.inContext] using hc
    rfl
  | decLiteral c =>
    obtain rfl : pending = false := by simpa [Instr.inContext] using hc
    exact congrArg Decoded.instr (decodeDecByte_literal (by simpa [Instr.wf] using hw))
  | decEscaped _ | decTruncated =>
    obtain rfl : pending = true := hc
    rfl

/-! ### What an accepted encoding is -/

/-- `e` is what the encoder writes for `i`, up to the `data_in` that RECEIVE_FRAME and the reserved code ignore. -/
def sameWord (i : Instr) (e : Encoded) : Prop :=
  encode i = e ∨ (i = .receiveFrame ∧ ∃ d, e = .cmd ⟨4#3, d⟩) ∨ (i = .reservedOp7 ∧ ∃ d, e = .cmd ⟨7#3, d⟩)

theorem cmd_eq {c : Command} {op : BitVec 3} {d : DataIn} (hop : c.op.toNat = op.toNat) (hd : c.dataIn = d) :
    Encoded.cmd ⟨op, d⟩ = .cmd c := by
  rw [← BitVec.eq_of_toNat_eq hop, ← hd]

/-- One case an operation code; codes 4 and 7 take either shape of `data_in` (log 11). -/
theorem sameWord_of_decodeCommand {c : Command} {i : Instr} (h : decodeCommand c = .instr i) :
    sameWord i (.cmd c) := by
  unfold decodeCommand at h
  split at h <;> cases h
  case h_1 hop hd | h_2 hop hd | h_3 hop hd | h_4 hop hd | h_6 hop hd | h_7 hop hd => exact .inl (cmd_eq hop hd)
  case h_5 hop => exact .inr (.inl ⟨rfl, c.dataIn, (cmd_eq hop rfl).symm⟩)
  case h_8 hop => exact .inr (.inr ⟨rfl, c.dataIn, (cmd_eq hop rfl).symm⟩)

theorem encode_decodeStage (st : StageCall) : encode (decodeStage st) = .stage st := by cases st <;> rfl

theorem encode_decodeRxByte (rx : RxState) (b : Byte) : encode (decodeRxByte rx b) = .rxByte b := by
  cases rx with
  | waitingForStart =>
    by_cases hb : b = START
    · rw [hb]; rfl
    · rw [decodeRxByte_noise hb]; rfl
  | capturing =>
    by_cases hb : b = END
    · rw [hb]; rfl
    · rw [decodeRxByte_body hb]; rfl

theorem encode_decodeDecByte (pending : Bool) (c : Byte) : encode (decodeDecByte pending c) = .decByte c := by
  cases pending with
  | false =>
    by_cases hc : c = ESC
    · rw [hc]; rfl
    · rw [decodeDecByte_literal hc]; rfl
  | true => rfl

/-- A transmit symbol that is accepted is the one the encoder writes, in front of what is left. -/
theorem encode_decodeTxSymbol {wire rest : List Byte} {i : Instr} (h : decodeTxSymbol wire = (.instr i, rest)) :
    ∃ symbol, encode i = .txSymbol symbol ∧ wire = symbol ++ rest := by
  unfold decodeTxSymbol at h
  repeat' split at h
  all_goals cases h
  all_goals subst_vars
  all_goals exact ⟨_, rfl, rfl⟩

theorem encode_decodeTxDelim {b : Byte} {i : Instr} (h : decodeTxDelim b = .instr i) : encode i = .txDelim b := by
  unfold decodeTxDelim at h
  repeat' split at h
  all_goals cases h
  all_goals subst_vars; rfl

theorem sameWord_of_decode {ctx : Context} {e : Encoded} {i : Instr} (h : decode ctx e = .instr i) :
    sameWord i e := by
  cases e with
  | cmd c => exact sameWord_of_decodeCommand h
  | stage st => cases h; exact .inl (encode_decodeStage st)
  | rxByte b => cases h; exact .inl (encode_decodeRxByte _ b)
  | decByte c => cases h; exact .inl (encode_decodeDecByte _ c)
  | decEnd =>
    simp only [decode] at h
    split at h <;> cases h
    exact .inl rfl
  | txSymbol wire =>
    simp only [decode] at h
    split at h <;> cases h
    rename_i hsym
    obtain ⟨symbol, hsymbol, rfl⟩ := encode_decodeTxSymbol hsym
    rw [List.append_nil]
    exact .inl hsymbol
  | txDelim b => exact .inl (encode_decodeTxDelim h)

/-- A command's two readings of an ignored `data_in` differ in no bit, and decode alike. -/
theorem encode_of_sameWord {ctx : Context} {e : Encoded} {i : Instr} (hd : decode ctx e = .instr i)
    (h : sameWord i e) : (encode i).tableWord = e.tableWord ∧ decode ctx (encode i) = .instr i := by
  obtain rfl | ⟨rfl, d, rfl⟩ | ⟨rfl, d, rfl⟩ := h
  · exact ⟨rfl, hd⟩
  · exact ⟨rfl, rfl⟩
  · exact ⟨rfl, rfl⟩

theorem decodeRxByte_inContext (ctx : Context) (b : Byte) : (decodeRxByte ctx.rxState b).inContext ctx = true := by
  unfold decodeRxByte
  split <;> split <;> simp_all [Instr.inContext]

theorem decodeDecByte_inContext (ctx : Context) (c : Byte) : (decodeDecByte ctx.escPend c).inContext ctx = true := by
  unfold decodeDecByte
  split
  · split <;> simp_all [Instr.inContext]
  · simpa [Instr.inContext]

/-- Only the byte classes have a context (R46, R47). -/
theorem inContext_of_not_byteClass {ctx : Context} {i : Instr} (hrx : ∀ b, encode i ≠ .rxByte b)
    (hdec : ∀ c, encode i ≠ .decByte c) (hend : encode i ≠ .decEnd) : i.inContext ctx = true := by
  cases i with
  | rxStart | rxNoise _ | rxEnd | rxBody _ => exact absurd rfl (hrx _)
  | decEsc | decLiteral _ | decEscaped _ => exact absurd rfl (hdec _)
  | decTruncated => exact absurd rfl hend
  | _ => rfl

/-- The decoder chooses among the byte classes by their context. -/
theorem inContext_of_decode {ctx : Context} {e : Encoded} {i : Instr} (h : decode ctx e = .instr i) :
    i.inContext ctx = true := by
  obtain he | ⟨rfl, _⟩ | ⟨rfl, _⟩ := sameWord_of_decode h
  · cases e with
    | rxByte b => cases h; exact decodeRxByte_inContext ctx b
    | decByte c => cases h; exact decodeDecByte_inContext ctx c
    | decEnd =>
      simp only [decode] at h
      split at h <;> cases h
      assumption
    | _ => exact inContext_of_not_byteClass (by simp [he]) (by simp [he]) (by simp [he])
  · rfl
  · rfl

/-- The word the encoder writes carries the fixed bits of its row of the opcode table. -/
theorem row_matches_encode (i : Instr) : i.row.matches (encode i).tableWord.2 = true := by
  cases i with
  | appendCrc p => exact (Laws.EncodingFits.appendCrc p).1
  | encodeFrame x => exact (Laws.EncodingFits.encodeFrame x).1
  | decodeFrame b => exact (Laws.EncodingFits.decodeFrame b).1
  | verifyCrc x => exact (Laws.EncodingFits.verifyCrc x).1
  | exchange q => exact (Laws.EncodingFits.exchange q).1
  | openStream a => exact (Laws.EncodingFits.openStream a).1
  | escape x => exact (Laws.EncodingFits.escape x).1
  | wrap e => exact (Laws.EncodingFits.wrap e).1
  | stripDelims f => exact (Laws.EncodingFits.stripDelims f).1
  | rxRead r => exact (Laws.EncodingFits.rxRead r).1
  | rxNoise b => exact (Laws.EncodingFits.rxNoise b).1
  | rxBody b => exact (Laws.EncodingFits.rxBody b).1
  | decLiteral c => exact (Laws.EncodingFits.decLiteral c).1
  | decEscaped c => exact (Laws.EncodingFits.decEscaped c).1
  | literal b => exact (Laws.EncodingFits.literal b).1
  | receiveFrame | reservedOp7 | rxStart | rxEnd | decEsc | decTruncated => rfl
  | pairStart | pairEnd | pairEsc | frameStart | frameEnd => rfl

end Sys2Proof

namespace Sys2Proof.Proofs

open Sys2Proof.Machine

/-- Settles O1: `decode_encode`, row by row. -/
theorem decodeOfEncodeIsTheRow : Obligations.DecodeOfEncodeIsTheRow :=
  fun _ _ _ hw hc => decode_encode hw hc

/-- Settles O2: what is accepted is the word the encoder writes, and that word has the row's fixed bits. -/
theorem decodedRowHasTheWordsBits : Obligations.DecodedRowHasTheWordsBits := by
  intro ctx e i h
  obtain ⟨hword, hdecode⟩ := encode_of_sameWord h (sameWord_of_decode h)
  exact ⟨inContext_of_decode h, hword, hword ▸ row_matches_encode i, hdecode⟩

/-- Settles O3: symbol by symbol, `decodeSymbols_escape`, since escaping makes no sequence shorter. -/
theorem escapedBodyHasOneReading : Obligations.EscapedBodyHasOneReading :=
  fun x => decodeSymbols_escape (by rw [escape_length]; omega)

/-- Settles O4: each word is a literal, and the decoder computes on it. -/
theorem writtenWordsDecode : Obligations.WrittenWordsDecode :=
  ⟨fun _ _ => rfl, fun _ _ => rfl, fun _ _ => rfl, fun _ d => by cases d <;> rfl, fun _ => rfl, fun _ => rfl,
    fun _ => rfl, fun _ => rfl, fun _ => rfl, fun _ => rfl⟩

end Sys2Proof.Proofs

/-! PROOFS. Escaping and framing (41_escape_wrap.md R61 to R65): the bytes a frame can hold (30_encoding.md R44) and
their number (R45), the exact next states of ENCODE_FRAME, DECODE_FRAME and of the rows on the transmit side, and that
the symbol rows of a sequence make its frame. -/

namespace Sys2Proof.Machine

open Sys2Proof.Safety

/-! ### The outcome of an operation that began on an idle block and ends within its step -/

theorem deliver_idle (r : Response) {s : State} (hb : s.busy = false) : deliver r s = setRsp (r :: s.rsp) s := by
  rw [deliver, setBusy_idle (by simpa using hb)]

theorem takeFailure_idle (f : Failure) (data : List Byte) {s : State} (hb : s.busy = false) :
    takeFailure false f data s = setRsp (⟨f.code, data⟩ :: s.rsp) (setExchStep 0#3 s) :=
  deliver_idle (s := setExchStep 0#3 s) _ hb

theorem conclude_ok_idle (data : List Byte) {s : State} (hb : s.busy = false) :
    conclude (.ok data) s = setRsp (⟨0#4, data⟩ :: s.rsp) s :=
  deliver_idle _ hb

/-- `BUSY` is set when a command is accepted and cleared by its outcome (10_state.md R15). -/
theorem conclude_accepted (v : Verdict) (s : State) : conclude v (setBusy true s) = conclude v s := by cases v <;> rfl

/-! ### What escaping emits -/

theorem escapeByte_eq (b : Byte) :
    escapeByte b = if b = START ∨ b = END ∨ b = ESC then [ESC, b ^^^ ESC] else [b] := by
  simp only [escapeByte, escapePair, escapeOperand, reserved_iff]

theorem escape_eq_flatMap (x : List Byte) :
    escape x = x.flatMap fun b => if b = START ∨ b = END ∨ b = ESC then [ESC, b ^^^ ESC] else [b] := by
  rw [escape, funext escapeByte_eq]

/-- The second byte of an escape pair (30_encoding.md R43). -/
def pairOperand (c : Byte) : Prop := c = 0xBD#8 ∨ c = 0xBC#8 ∨ c = 0x00#8

theorem pairOperand_of_reserved {b : Byte} (h : reserved b = true) : pairOperand (escapeOperand b) := by
  obtain rfl | rfl | rfl := (reserved_iff b).mp h
  · exact .inl rfl
  · exact .inr (.inl rfl)
  · exact .inr (.inr rfl)

theorem not_reserved_of_pairOperand {c : Byte} (h : pairOperand c) : reserved c = false := by
  obtain rfl | rfl | rfl := h <;> rfl

theorem escape_no_delimiter {x : List Byte} {c : Byte} (h : c ∈ escape x) : c ≠ START ∧ c ≠ END := by
  obtain ⟨b, _, hc⟩ := List.mem_flatMap.mp h
  suffices hr : reserved c = true → c = ESC by
    constructor <;> rintro rfl <;> exact absurd (hr rfl) (by decide)
  obtain ⟨hr, hbytes⟩ | ⟨hr, hbytes⟩ := escapeByte_cases b <;> rw [hbytes] at hc
  · obtain rfl := List.mem_singleton.mp hc
    simp [hr]
  · obtain rfl | hc := List.mem_cons.mp hc
    · exact fun _ => rfl
    · obtain rfl := List.mem_singleton.mp hc
      simp [not_reserved_of_pairOperand (pairOperand_of_reserved hr)]

/-- A marker in an escaped body is the first byte of a pair, and the pair's second byte is no marker. -/
theorem escape_marker_followed {x : List Byte} {i : Nat} (h : (escape x)[i]? = some ESC) :
    ∃ c, (escape x)[i + 1]? = some c ∧ pairOperand c := by
  induction x generalizing i with
  | nil => simp at h
  | cons b x ih =>
    obtain ⟨hr, hbytes⟩ | ⟨hr, hbytes⟩ := escapeByte_cases b <;> rw [escape_cons, hbytes] at h ⊢
    · match i, h with
      | 0, h =>
        obtain rfl : b = ESC := by simpa using h
        exact absurd hr (by decide)
      | i + 1, h => exact ih h
    · have hop := pairOperand_of_reserved hr
      match i, h with
      | 0, _ => exact ⟨_, rfl, hop⟩
      | 1, h =>
        have heq : escapeOperand b = ESC := by simpa using h
        have hno := not_reserved_of_pairOperand hop
        rw [heq] at hno
        exact absurd hno (by decide)
      | i + 2, h => exact ih h

/-! ### The frame around it -/

@[simp] theorem wrap_length (e : List Byte) : (wrap e).length = e.length + 2 := by simp [wrap]

theorem wrap_first (e : List Byte) : (wrap e)[0]? = some START := rfl

theorem wrap_last (e : List Byte) : (wrap e)[e.length + 1]? = some END := by simp [wrap]

theorem wrap_inside {e : List Byte} {i : Nat} (h : i < e.length) : (wrap e)[i + 1]? = e[i]? := by
  simp [wrap, List.getElem?_append_left h]

theorem wrap_index_inside {e : List Byte} {i : Nat} (h0 : 0 < i) (hi : i < (wrap e).length - 1) :
    ∃ j, i = j + 1 ∧ j < e.length := by
  rw [wrap_length] at hi
  exact ⟨i - 1, by omega, by omega⟩

theorem stripDelims_between (first last : Byte) (mid : List Byte) : stripDelims ([first] ++ mid ++ [last]) = mid := by
  simp [stripDelims]

theorem appendCrc_eq_ok {p x : List Byte} : appendCrc p = .ok x ↔ p ≠ [] ∧ p ++ crc16LE p = x := by
  unfold appendCrc; cases p <;> simp

/-! ### The walk of the decoder is the text of its rule -/

theorem decodeWalk_pair (d : Byte) (rest : List Byte) :
    decodeWalk (ESC :: d :: rest) = ⟨(decodeWalk rest).escPend, escapeOperand d :: (decodeWalk rest).out⟩ := by
  simp only [decodeWalk, List.foldl_cons, walk_marker, walk_escaped]
  exact walk_out rest false _

theorem decodeWalk_literal {c : Byte} (rest : List Byte) (h : c ≠ ESC) :
    decodeWalk (c :: rest) = ⟨(decodeWalk rest).escPend, c :: (decodeWalk rest).out⟩ := by
  simp only [decodeWalk, List.foldl_cons, walk_literal _ h]
  exact walk_out rest false _

/-- Replacing each pair succeeds exactly when the walk ends with no marker pending, and gives what the walk emitted. -/
theorem unescape_eq_walk (b : List Byte) :
    unescape b = if (decodeWalk b).escPend then none else some (decodeWalk b).out := by
  induction b using unescape.induct with
  | case1 => rfl
  | case2 => rfl
  | case3 c hc => simp [unescape, hc, decodeWalk_literal]
  | case4 d rest ih =>
    simp only [unescape, decodeWalk_pair, ih]
    cases (decodeWalk rest).escPend <;> simp [escapeOperand]
  | case5 c d rest hc ih =>
    simp only [unescape, hc, decodeWalk_literal _ hc, ih]
    cases (decodeWalk (d :: rest)).escPend <;> simp

theorem decodeWalk_of_unescape {b y : List Byte} (h : unescape b = some y) : decodeWalk b = ⟨false, y⟩ := by
  rw [unescape_eq_walk] at h
  rcases hw : decodeWalk b with ⟨p, o⟩
  rw [hw] at h
  cases p <;> simp_all

theorem pending_of_unescape_none {b : List Byte} (h : unescape b = none) : (decodeWalk b).escPend = true := by
  simpa [unescape_eq_walk] using h

/-- A walk that ends with a marker pending makes DECODE_FRAME fail (60_exceptions.md R86). -/
theorem decodeFrame_eq_truncated {b : List Byte} :
    decodeFrame b = .fail .truncatedEscape [] ↔ b ≠ [] ∧ (decodeWalk b).escPend = true := by
  unfold decodeFrame
  cases b <;> cases (decodeWalk _).escPend <;> simp

/-! ### The two commands -/

theorem exec_encodeFrame {x : List Byte} {s : State} (hb : s.busy = false)
    (ha : s.cfg.maxPayload.admits x.length = true) (hx : x ≠ []) :
    exec (.encodeFrame x) s = .next (setRsp (⟨0#4, wrap (escape x)⟩ :: s.rsp) s) := by
  simp only [exec, execEncodeFrame, acceptBytes_idle _ hb ha, encodeFrame_ok hx, conclude_accepted,
    conclude_ok_idle _ hb]

theorem walkBody_nonEmpty {b : List Byte} (s : State) (h : b ≠ []) :
    walkBody b s = setWalking false (setEscPend (decodeWalk b).escPend s) := by
  simp [walkBody, h]

theorem exec_decodeFrame {b : List Byte} {s : State} (hb : s.busy = false)
    (ha : s.cfg.maxPayload.admits b.length = true) (hne : b ≠ []) :
    exec (.decodeFrame b) s = .next (conclude (decodeFrame b)
      (setWalking false (setEscPend (decodeWalk b).escPend s))) := by
  simp only [exec, execDecodeFrame, acceptBytes_idle _ hb ha, walkBody_nonEmpty _ hne]
  exact congrArg Host.Outcome.next (conclude_accepted _ (setWalking false (setEscPend (decodeWalk b).escPend s)))

/-! ### The stages and the transmit rows on their own (log 6) -/

section TransmitRows

variable {s : State} (hb : s.busy = false)
include hb

theorem exec_escape (x : List Byte) : exec (.escape x) s = .next (yieldOut (escape x) s) := innerRow_idle _ hb

theorem exec_wrap (e : List Byte) : exec (.wrap e) s = .next (yieldOut (wrap e) s) := innerRow_idle _ hb

theorem exec_stripDelims {f : List Byte} (h : 2 ≤ f.length) :
    exec (.stripDelims f) s = .next (yieldOut (stripDelims f) s) := by
  simp [exec, execStripDelims, h, hb]

theorem exec_stripDelims_short {f : List Byte} (h : f.length < 2) : exec (.stripDelims f) s = .refused .illFormed := by
  simp [exec, execStripDelims, innerRow, hb, h]

theorem exec_literal {b : Byte} (h : reserved b = false) : exec (.literal b) s = .next (emit [b] s) := by
  simp [exec, execLiteral, h, hb]

theorem exec_frameStart : exec .frameStart s = .next (emit [START] s) := innerRow_idle _ hb

theorem exec_frameEnd : exec .frameEnd s = .next (emit [END] s) := innerRow_idle _ hb

/-- The symbol row of a byte emits what ESCAPE gives for the byte. -/
theorem exec_symbolOf (b : Byte) : exec (symbolOf b) s = .next (emit (escapeByte b) s) := by
  cases hr : reserved b with
  | false =>
    obtain ⟨_, hbytes⟩ | ⟨hr', _⟩ := escapeByte_cases b
    · rw [symbolOf_literal hr, exec_literal hb hr, hbytes]
    · simp [hr] at hr'
  | true => obtain rfl | rfl | rfl := (reserved_iff b).mp hr <;> exact innerRow_idle _ hb

end TransmitRows

/-! ### The symbol rows of a sequence -/

theorem execAll_cons {i : Instr} {s t : State} (is : List Instr) (h : exec i s = .next t) :
    execAll (i :: is) s = execAll is t := by simp only [execAll, h]

theorem emit_emit (a b : List Byte) (s : State) : emit b (emit a s) = emit (a ++ b) s := by
  simp [emit, setOut]

theorem execAll_symbols (x : List Byte) (is : List Instr) {s : State} (hb : s.busy = false) :
    execAll (x.map symbolOf ++ is) s = execAll is (emit (escape x) s) := by
  induction x generalizing s with
  | nil => simp [emit, setOut]
  | cons b x ih =>
    rw [List.map_cons, List.cons_append, execAll_cons _ (exec_symbolOf hb b), ih (by simpa using hb), emit_emit]
    rfl

theorem execAll_frame (x : List Byte) {s : State} (hb : s.busy = false) :
    execAll ([.frameStart] ++ x.map symbolOf ++ [.frameEnd]) s = .next (emit (wrap (escape x)) s) := by
  rw [List.append_assoc, List.singleton_append, execAll_cons _ (exec_frameStart hb),
    execAll_symbols x _ (by simpa using hb), execAll_cons _ (exec_frameEnd (by simpa using hb)), emit_emit, emit_emit,
    ← List.append_assoc]
  rfl

end Sys2Proof.Machine

namespace Sys2Proof.Proofs

open Sys2Proof.Machine Sys2Proof.Safety

/-- Settles O26: `exec_encodeFrame`, with the escaping of each byte written out. -/
theorem encodeFrameResult : Obligations.EncodeFrameResult := by
  intro x s hb ha hx
  rw [exec_encodeFrame hb ha hx, escape_eq_flatMap]
  rfl

/-- Settles O27: the walk ends as `unescape` says, with or without a pending marker. -/
theorem decodeFrameResult : Obligations.DecodeFrameResult := by
  intro b s hb ha hne
  rw [exec_decodeFrame hb ha hne]
  constructor
  · intro y hy
    have hw := decodeWalk_of_unescape hy
    rw [decodeFrame_eq_ok.mpr ⟨hne, hw⟩, hw, conclude_ok_idle _ (by simpa using hb)]
    rfl
  · intro hnone
    have hp := pending_of_unescape_none hnone
    rw [decodeFrame_eq_truncated.mpr ⟨hne, hp⟩, hp, conclude, takeFailure_idle _ _ (by simpa using hb)]
    rfl

/-- Settles O29: the frame's inside is the escaped body, whose bytes `escape_no_delimiter` and `escape_marker_followed`
speak of. -/
theorem frameInvariant : Obligations.FrameInvariant := by
  intro x f h
  obtain ⟨_, rfl⟩ := encodeFrame_eq_ok.mp h
  refine ⟨wrap_first _, by rw [wrap_length]; exact wrap_last _, ?delimiters, ?markers⟩
  case delimiters =>
    intro i h0 hi
    obtain ⟨j, rfl, hj⟩ := wrap_index_inside h0 hi
    rw [wrap_inside hj]
    exact ⟨fun hc => (escape_no_delimiter (List.mem_of_getElem? hc)).1 rfl,
      fun hc => (escape_no_delimiter (List.mem_of_getElem? hc)).2 rfl⟩
  case markers =>
    intro i h0 hi hm
    obtain ⟨j, rfl, hj⟩ := wrap_index_inside h0 hi
    rw [wrap_inside hj] at hm
    obtain ⟨c, hc, hop⟩ := escape_marker_followed hm
    have hlt : j + 1 < (escape x).length := (List.getElem?_eq_some_iff.mp hc).1
    rw [wrap_inside hlt, hc]
    exact ⟨by simpa using hlt, by simpa [pairOperand] using hop⟩

/-- Settles O30: `escape_length`, and no more bytes are reserved than there are. -/
theorem formatLengths : Obligations.FormatLengths := by
  intro p x f hp hx
  obtain ⟨hne, rfl⟩ := appendCrc_eq_ok.mp hp
  obtain ⟨_, rfl⟩ := encodeFrame_eq_ok.mp hx
  have hpos := List.length_pos_of_ne_nil hne
  have hlen : (p ++ crc16LE p).length = p.length + 2 := by simp [crc16LE]
  have hcount := List.countP_le_length (p := reserved) (l := p ++ crc16LE p)
  rw [wrap_length, escape_length]
  omega

/-- Settles O33: `exec_wrap`. -/
theorem wrapResult : Obligations.WrapResult :=
  fun e _ hb => ⟨exec_wrap hb e, wrap_length e⟩

/-- Settles O34: ESCAPE byte by byte, and the slice with its bound. -/
theorem escapeAndStripResults : Obligations.EscapeAndStripResults := by
  intro s hb
  refine ⟨exec_escape hb [], fun b x => ?first, fun first last mid => ?slice, fun f hf => exec_stripDelims_short hb hf⟩
  case first =>
    rw [exec_escape hb, escape_cons, escapeByte_eq]
    rfl
  case slice =>
    rw [exec_stripDelims hb (by simp), stripDelims_between]
    rfl

/-- Settles O35: each row emits its bytes. -/
theorem symbolResults : Obligations.SymbolResults := by
  intro s hb
  refine ⟨innerRow_idle _ hb, innerRow_idle _ hb, innerRow_idle _ hb, fun b hs he hm => ?literal, exec_frameStart hb,
    exec_frameEnd hb⟩
  case literal => exact exec_literal hb (by simp [reserved, START, END, ESC, hs, he, hm])

/-- Settles O36: `execAll_frame`, from an empty `out`. -/
theorem symbolRowsMakeTheFrame : Obligations.SymbolRowsMakeTheFrame := by
  intro x f s hb hout hf
  obtain ⟨_, rfl⟩ := encodeFrame_eq_ok.mp hf
  rw [execAll_frame x hb, emit, hout]
  rfl

end Sys2Proof.Proofs

/-! PROOFS. The byte classes of the decoder driven one by one (30_encoding.md R47) and the walk they make of a body
(41_escape_wrap.md R65), the end of a RECEIVE_FRAME (42_receive.md R68, R70), failure entry (60_exceptions.md R91), and
the contexts outside which an inner row does not exist. -/

namespace Sys2Proof.Machine

open Sys2Proof.Safety

/-! ### Where an inner row does not exist -/

theorem innerRow_busy {s : State} (admitted here : Bool) (u : State) (h : s.busy = true) :
    innerRow admitted here s u = .refused .commandWhileBusy := by simp [innerRow, h]

theorem innerRow_outOfContext {s : State} (u : State) (h : s.busy = false) :
    innerRow true false s u = .refused .outOfContext := by simp [innerRow, h]

theorem receiveRow_outOfContext {s : State} {here : Bool} (r : State × RxYield)
    (h : s.receiving = false ∨ here = false) : receiveRow true here s r = .refused .outOfContext := by
  obtain h | h := h <;> simp [receiveRow, h]

theorem exec_rxNoise_outOfContext {b : Byte} {s : State} (hb : b ≠ START)
    (h : s.receiving = false ∨ (s.rxState == .waitingForStart) = false) :
    exec (.rxNoise b) s = .refused .outOfContext := by
  simp only [exec, execRxNoise, bne_iff_ne.mpr hb, receiveRow_outOfContext _ h]

theorem exec_rxBody_outOfContext {b : Byte} {s : State} (hb : b ≠ END)
    (h : s.receiving = false ∨ (s.rxState == .capturing) = false) : exec (.rxBody b) s = .refused .outOfContext := by
  simp only [exec, execRxBody, bne_iff_ne.mpr hb, receiveRow_outOfContext _ h]

theorem exec_decLiteral_outOfContext {c : Byte} {s : State} (hc : c ≠ ESC) (hb : s.busy = false)
    (hp : s.escPending = true) : exec (.decLiteral c) s = .refused .outOfContext := by
  simp only [exec, execDecLiteral, bne_iff_ne.mpr hc, hp, Bool.not_true, innerRow_outOfContext _ hb]

theorem exec_decEsc_outOfContext {s : State} (hb : s.busy = false) (hp : s.escPending = true) :
    exec .decEsc s = .refused .outOfContext := by
  simp only [exec, execDecEsc, hp, Bool.not_true, innerRow_outOfContext _ hb]

theorem exec_decEscaped_outOfContext (c : Byte) {s : State} (hb : s.busy = false) (hp : s.escPending = false) :
    exec (.decEscaped c) s = .refused .outOfContext := by
  simp only [exec, execDecEscaped, hp, innerRow_outOfContext _ hb]

theorem exec_decTruncated_outOfContext {s : State} (hb : s.busy = false) (hp : s.escPending = false) :
    exec .decTruncated s = .refused .outOfContext := by
  simp only [exec, execDecTruncated, hp, innerRow_outOfContext _ hb]

/-! ### The decoder's byte classes -/

theorem walkOf_pending {s : State} (hp : s.escPending = true) : walkOf s = ⟨true, s.out⟩ := by
  obtain ⟨_, hwalk, hpend⟩ := escPending_iff.mp hp
  rw [walkOf_under_way hwalk, hpend]

theorem walkOf_not_pending {s : State} (hb : s.busy = false) (hp : s.escPending = false) :
    walkOf s = ⟨false, if s.walking then s.out else []⟩ := by
  cases hwalk : s.walking with
  | false => simp [walkOf_outside hwalk]
  | true =>
    have hpend : s.escPend = false := by simpa [State.escPending, hb, hwalk] using hp
    simp [walkOf_under_way hwalk, hpend]

theorem setWalking_under_way {s : State} (h : s.walking = true) : setWalking true s = s := by
  rw [← h]; rfl

section DecoderRows

variable {s : State} (hb : s.busy = false)
include hb

theorem exec_decEsc (hp : s.escPending = false) : exec .decEsc s = .next (withWalk (walkOf s).marker s) := by
  simp [exec, execDecEsc, hp, hb]

theorem exec_decLiteral {c : Byte} (hp : s.escPending = false) (hc : c ≠ ESC) :
    exec (.decLiteral c) s = .next (withWalk ((walkOf s).literal c) s) := by
  simp only [exec, execDecLiteral, hp, bne_iff_ne.mpr hc, Bool.not_false, innerRow_idle _ hb]

theorem exec_decEscaped (c : Byte) (hp : s.escPending = true) :
    exec (.decEscaped c) s = .next (withWalk ((walkOf s).escaped c) s) := by
  simp [exec, execDecEscaped, hp, hb]

theorem exec_decTruncated (hp : s.escPending = true) :
    exec .decTruncated s = .next (takeFailure false .truncatedEscape [] (setWalking false s)) := by
  simp [exec, execDecTruncated, hp, hb]

/-- The class the decoder chooses for a byte makes that byte's step of the walk (R65). -/
theorem exec_decodeDecByte (c : Byte) :
    exec (decodeDecByte s.escPending c) s = .next (withWalk ((walkOf s).byte c) s) := by
  cases hp : s.escPending with
  | true => rw [decodeDecByte_escaped, exec_decEscaped hb c hp, Walk.byte, walkOf_escPend hb, hp]; rfl
  | false =>
    have hwalk : (walkOf s).byte c = if c = ESC then (walkOf s).marker else (walkOf s).literal c := by
      rw [Walk.byte, walkOf_escPend hb, hp]; rfl
    by_cases hc : c = ESC
    · rw [hwalk, if_pos hc, hc, decodeDecByte_marker, exec_decEsc hb hp]
    · rw [hwalk, if_neg hc, decodeDecByte_literal hc, exec_decLiteral hb hp hc]

theorem step_decByte {c : Byte} {rest : List CallerEvent} (hc : s.caller = .inner (.decByte c) :: rest) :
    step s = .next (withWalk ((walkOf s).byte c) (setCaller rest s)) :=
  (step_inner hc rfl).trans (exec_decodeDecByte (s := setCaller rest s) hb c)

theorem step_decEnd {rest : List CallerEvent} (hp : s.escPending = true) (hc : s.caller = .inner .decEnd :: rest) :
    step s = .next (takeFailure false .truncatedEscape [] (setWalking false (setCaller rest s))) :=
  (step_inner hc (by simp [decode, contextOf, hp])).trans (exec_decTruncated (s := setCaller rest s) hb hp)

end DecoderRows

/-! ### A body offered byte by byte -/

/-- The bytes of a body, each offered to the decoder on its own. -/
def offerBody (b : List Byte) : List CallerEvent := b.map fun c => .inner (.decByte c)

theorem withWalk_withWalk (w v : Walk) (l r : List CallerEvent) (s : State) :
    withWalk v (setCaller r (withWalk w (setCaller l s))) = withWalk v (setCaller r s) := by
  simp only [withWalk, setOut, setEscPend, setWalking, setCaller]

/-- The steps that offer a body, in front of whatever runs next, make the walk over it: on from the walk under way, or
from the beginning of one (R65). -/
theorem runsTo_offerBody {b : List Byte} {rest : List CallerEvent} {s t : State} {n : Nat} (hb : s.busy = false)
    (hne : b ≠ []) (hc : s.caller = offerBody b ++ rest)
    (hr : runsTo n (withWalk (b.foldl Walk.byte (walkOf s)) (setCaller rest s)) t) : runsTo (b.length + n) s t := by
  induction b generalizing s with
  | nil => exact absurd rfl hne
  | cons c b ih =>
    rw [List.length_cons, Nat.add_right_comm]
    refine runsTo_succ (step_decByte hb hc) ?_
    cases b with
    | nil => rwa [List.length_nil, Nat.zero_add]
    | cons d b =>
      refine ih (by simpa using hb) (List.cons_ne_nil d b) rfl ?_
      rwa [walkOf_withWalk, withWalk_withWalk]

/-! ### RX_END -/

theorem exec_rxEnd {s : State} (h : s.receiving = true) (hr : s.rxState = .capturing) :
    exec .rxEnd s = .next (resume (s, .done s.mem.capBuf)) := by
  simp [exec, execRxEnd, hr, h, rxEndByte]

/-! ### Failure entry -/

theorem code_range (f : Failure) : 1 ≤ f.code.toNat ∧ f.code.toNat ≤ 10 := by cases f <;> decide

/-- The outcome of a failure: a code of R80, and data under `ChecksumMismatch` alone (R51). -/
def reportsFailure (r : Response) : Prop :=
  (r.status ≠ 5#4 → r.dataOut = []) ∧ 1 ≤ r.status.toNat ∧ r.status.toNat ≤ 10

theorem reportsFailure_fail {f : Failure} {data : List Byte} (h : (Verdict.fail f data).tidy) :
    reportsFailure (Verdict.fail f data).response :=
  ⟨fun h5 => h (by rintro rfl; exact h5 rfl), code_range f⟩

/-- A verdict delivered with a status other than 0 is a failure. -/
theorem fail_of_status {v : Verdict} (h : v.response.status ≠ 0#4) : ∃ f data, v = .fail f data := by
  cases v with
  | ok data => exact absurd rfl h
  | fail f data => exact ⟨f, data, rfl⟩

/-- What failure entry leaves, for an operation that was begun in `s`. -/
def failedFrom (s t : State) : Prop :=
  t.busy = false ∧ t.exchStep = 0#3 ∧ t.opened = s.opened ∧ (s.busy = true → receiveAtRest t)

/-- A row that delivers a failure has taken failure entry, one case per shape a row's next state can have. -/
theorem exec_failure {i : Instr} {s t : State} {r : Response} (h : exec i s = .next t) (hrsp : t.rsp = r :: s.rsp)
    (hstatus : r.status ≠ 0#4) : failedFrom s t ∧ reportsFailure r := by
  cases exec_effect h with
  | concludes v u idle tidy writes _ =>
    have hu : u.rsp = s.rsp ∧ u.opened = s.opened := by rw [writes]; exact ⟨rfl, rfl⟩
    obtain rfl : v.response = r := by simpa [hu] using hrsp
    obtain ⟨f, data, rfl⟩ := fail_of_status hstatus
    exact ⟨⟨rfl, rfl, hu.2, by simp [idle]⟩, reportsFailure_fail tidy⟩
  | quiet bs p w _ => exact absurd hrsp.symm (List.cons_ne_self r s.rsp)
  | receives m st n y running _ _ _ =>
    by_cases hy : y = .goOn
    · subst hy; exact absurd hrsp.symm (List.cons_ne_self r s.rsp)
    · obtain ⟨hv, hbusy, hstep, _, hopened, _, _, _, hrest⟩ :=
        resume_effect (s := setEmptyCnt n (setMem m (setRxState st s))) (receiving_iff.mp running).2 hy
      obtain rfl := (List.cons.inj (hrsp.symm.trans hv)).1
      have htidy := endVerdict_tidy (setEmptyCnt n (setMem m (setRxState st s))) y
      obtain ⟨f, data, hfail⟩ := fail_of_status hstatus
      rw [hfail] at htidy ⊢
      exact ⟨⟨hbusy, hstep, hopened, fun _ => hrest⟩, reportsFailure_fail htidy⟩
  | begins _ _ _ => exact absurd hrsp.symm (List.cons_ne_self r s.rsp)
  | exchanges q _ idle _ =>
    obtain ⟨_, _, _, hnone⟩ | ⟨hbusy, hstep, _, _, _, f, hv⟩ := exchangeHead_outcome q (setBusy true s)
    · exact absurd (hrsp.symm.trans hnone) (List.cons_ne_self r s.rsp)
    · obtain rfl : (Verdict.fail f []).response = r := by simpa [hv] using hrsp
      exact ⟨⟨hbusy, hstep, exchangeHead_opened q _, by simp [idle]⟩, reportsFailure_fail (tidy_fail_nil f)⟩
  | opens a _ idle _ =>
    obtain ⟨_, hopen⟩ | ⟨_, _, hopen⟩ := openAnswered_cases a (setBusy true s) <;> rw [hopen] at hrsp ⊢
    · obtain rfl : (Verdict.ok []).response = r := by simpa using hrsp
      exact absurd rfl hstatus
    · obtain rfl : (Verdict.fail .openError []).response = r := by simpa using hrsp
      exact ⟨⟨rfl, rfl, rfl, by simp [idle]⟩, reportsFailure_fail (tidy_fail_nil _)⟩

end Sys2Proof.Machine

namespace Sys2Proof.Proofs

open Sys2Proof.Machine Sys2Proof.Safety

/-- Settles O15: `exec_failure`. -/
theorem failureEntryLeavesTheBlockIdle : Obligations.FailureEntryLeavesTheBlockIdle := by
  intro i s t r h hrsp hstatus
  obtain ⟨⟨hbusy, hstep, hopened, hrest⟩, hreport⟩ := exec_failure h hrsp hstatus
  exact ⟨hbusy, hstep, hopened, hrest, hreport⟩

/-- Settles O37: the four classes on the walk that the state holds, or begins. -/
theorem decoderClassResults : Obligations.DecoderClassResults := by
  intro s hb
  refine ⟨fun hp => ⟨?marker, fun c hc => ?literal⟩, fun hp => ⟨fun c => ?escaped, ?truncated⟩⟩
  case marker =>
    rw [exec_decEsc hb hp, walkOf_not_pending hb hp]
    rfl
  case literal =>
    rw [exec_decLiteral hb hp hc, walkOf_not_pending hb hp]
    rfl
  case escaped =>
    obtain ⟨_, hwalk, _⟩ := escPending_iff.mp hp
    rw [exec_decEscaped hb c hp, walkOf_pending hp, withWalk, setWalking_under_way hwalk]
    rfl
  case truncated =>
    rw [exec_decTruncated hb hp, takeFailure_idle _ _ (by simpa using hb)]
    rfl

/-- Settles O38: the steps make the walk over the body, and the end of the input judges the marker it may leave. -/
theorem decoderClassesWalkTheBody : Obligations.DecoderClassesWalkTheBody := by
  intro b s rest hb hw hne hc
  refine ⟨fun y hy => ?decoded, fun hfail => ?truncated⟩
  case decoded =>
    have hwalk : b.foldl Walk.byte (walkOf s) = ⟨false, y⟩ := by
      rw [walkOf_outside hw]
      exact (decodeFrame_eq_ok.mp hy).2
    refine runsTo_offerBody (n := 0) hb hne hc ?_
    rw [hwalk]
    exact runsTo_zero _
  case truncated =>
    have hp : (b.foldl Walk.byte (walkOf s)).escPend = true := by
      rw [walkOf_outside hw]
      exact (decodeFrame_eq_truncated.mp hfail).2
    have hend := step_decEnd (s := withWalk (b.foldl Walk.byte (walkOf s)) (setCaller (.inner .decEnd :: rest) s)) hb
      (escPending_iff.mpr ⟨hb, rfl, hp⟩) rfl
    exact ⟨_, runsTo_offerBody hb hne hc (runsTo_succ hend (runsTo_zero _)), by simp [Failure.code], by simp, by simp⟩

/-- Settles O42: a capture of RECEIVE_FRAME ends with its buffer, and nothing asks how full that is. -/
theorem endDelimiterDeliversTheBody : Obligations.EndDelimiterDeliversTheBody := by
  intro s hb hstep hr
  rw [exec_rxEnd (receiving_iff.mpr ⟨hb, .inl hstep⟩) hr, resume_done_receive _ (by rw [hstep]; decide)]
  rfl

/-- Settles O58: the guards of the inner rows. -/
theorem innerRowsNeedTheirContext : Obligations.InnerRowsNeedTheirContext := by
  refine ⟨?read, ?waiting, ?capturing, ?pending, ?notPending, ?busy⟩
  case read =>
    intro r s hw hs
    simp only [exec, execRxRead, hw, receiveRow_outOfContext _ (.inl hs)]
  case waiting =>
    intro s hs
    have hno : s.receiving = false ∨ (s.rxState == .waitingForStart) = false := hs.imp_right fun hr => by rw [hr]; rfl
    exact ⟨receiveRow_outOfContext _ hno, fun b hb => exec_rxNoise_outOfContext hb hno⟩
  case capturing =>
    intro s hs
    have hno : s.receiving = false ∨ (s.rxState == .capturing) = false := hs.imp_right fun hr => by rw [hr]; rfl
    exact ⟨receiveRow_outOfContext _ hno, fun b hb => exec_rxBody_outOfContext hb hno⟩
  case pending =>
    exact fun s hb hp => ⟨exec_decEsc_outOfContext hb hp, fun c hc => exec_decLiteral_outOfContext hc hb hp⟩
  case notPending =>
    exact fun s hb hp => ⟨exec_decTruncated_outOfContext hb hp, fun c => exec_decEscaped_outOfContext c hb hp⟩
  case busy =>
    rintro i s hb (rfl | ⟨c, rfl⟩ | ⟨c, rfl⟩ | rfl) <;> exact innerRow_busy _ _ _ hb

end Sys2Proof.Proofs

/-! PROOFS. The checksum (40_checksum.md R56): its table-driven form, the self-check of a checksummed sequence and its
converse, and one flipped bit (R57); the exact next state of VERIFY_CRC (R59); and what the codec commands and the
reserved code leave unchanged (R58, R59, R63, R65, R77). -/

namespace Sys2Proof.Machine

/-! ### The table-driven form -/

theorem lo_xor (a b : Half) : lo (a ^^^ b) = lo a ^^^ lo b := by
  ext i
  simp [lo]

theorem hi_xor (a b : Half) : hi (a ^^^ b) = hi a ^^^ hi b := by
  ext i
  simp [hi]

@[simp] theorem lo_of_low (b : Byte) : lo (b.setWidth 16) = b := by simp [lo_eq_setWidth]

@[simp] theorem hi_of_low (b : Byte) : hi (b.setWidth 16) = 0#8 := by
  ext i
  simp [hi]

@[simp] theorem lo_of_high (b : Byte) : lo (b.setWidth 16 <<< 8) = 0#8 := by
  ext i hlt
  simp [lo, hlt]

@[simp] theorem hi_of_high (b : Byte) : hi (b.setWidth 16 <<< 8) = b := by
  ext i hlt
  simp [hi, hlt, show 8 + i < 16 by omega, BitVec.getLsbD_eq_getElem]

/-- `Table` holds what eight shift steps make of the low byte. -/
theorem crcByteByTable_eq (acc : Half) (b : Byte) : crcByteByTable acc b = crcByte acc b := by
  rw [crcByteByTable, crcByte_split, hi_setWidth, lo_xor, lo_of_low, BitVec.xor_comm]

/-! ### Two bytes that make the checksum 0 -/

theorem crcByte_zero_iff (acc : Half) (b : Byte) : crcByte acc b = 0#16 ↔ acc = b.setWidth 16 := by
  rw [crcByte, crcShift8_zero_iff, BitVec.xor_eq_zero_iff]

/-- Two registers with the same bytes are one. -/
theorem half_eq_iff (a b : Half) : a = b ↔ lo a = lo b ∧ hi a = hi b := by
  constructor
  · rintro rfl
    exact ⟨rfl, rfl⟩
  · rintro ⟨hlo, hhi⟩
    rw [half_split a, half_split b, hlo, hhi]

/-- A byte that leaves only the low byte of the register is the register's low byte: eight steps that do nothing but
move the high byte down began with 0 below it. -/
theorem crcByte_eq_low_iff (acc : Half) (a b : Byte) : crcByte acc a = b.setWidth 16 ↔ a = lo acc ∧ b = hi acc := by
  have hshift : crcByte acc a = b.setWidth 16 ↔ acc ^^^ a.setWidth 16 = b.setWidth 16 <<< 8 := by
    conv_lhs => rw [crcByte, ← crcShift8_high b]
    exact ⟨crcShift8_inj _ _, congrArg crcShift8⟩
  rw [hshift, half_eq_iff, eq_comm (a := a), eq_comm (a := b)]
  simp [lo_xor, hi_xor]

/-- R57 (c) and its converse: the self-check succeeds on the checksum's own bytes and on no others. -/
theorem crc16_pair_zero_iff (p : List Byte) (a b : Byte) :
    crc16 (p ++ [a, b]) = 0#16 ↔ a = lo (crc16 p) ∧ b = hi (crc16 p) := by
  rw [crc16_append, List.foldl_cons, List.foldl_cons, List.foldl_nil, crcByte_zero_iff,
    crcByte_eq_low_iff]

theorem crc16_single_ne_zero (a : Byte) : crc16 [a] ≠ 0#16 := by
  intro h
  have hhigh : hi 0xFFFF#16 = hi (a.setWidth 16) := congrArg hi ((crcByte_zero_iff _ a).mp h)
  rw [hi_of_low] at hhigh
  exact absurd hhigh (by decide)

/-! ### One flipped bit -/

/-- Bytes that follow lose nothing of the register. -/
theorem foldl_crcByte_inj {r : List Byte} {a b : Half} (h : r.foldl crcByte a = r.foldl crcByte b) : a = b := by
  induction r generalizing a b with
  | nil => exact h
  | cons x r ih => exact crcByte_inj (ih h)

/-- The register tells the byte that entered it. -/
theorem crcByte_byte_inj {acc : Half} {x y : Byte} (h : crcByte acc x = crcByte acc y) : x = y := by
  have hlow := congrArg lo (crcShift8_inj _ _ h)
  simpa [lo_xor] using hlow

/-- Sequences that differ in one byte have different checksums. -/
theorem crc16_byte_inj {l r : List Byte} {x y : Byte} (h : crc16 (l ++ [x] ++ r) = crc16 (l ++ [y] ++ r)) : x = y := by
  simp only [crc16_append] at h
  exact crcByte_byte_inj (foldl_crcByte_inj h)

theorem flipBit_ne (b : Byte) (k : Fin 8) : b ^^^ (1#8 <<< k.val) ≠ b := by
  have hbit : 1#8 <<< k.val ≠ 0#8 := by revert k; decide
  simpa using hbit

/-- R57 (d). -/
theorem crc16_flipBit_ne_zero {l r : List Byte} {b : Byte} (k : Fin 8) (h : crc16 (l ++ [b] ++ r) = 0#16) :
    crc16 (l ++ [b ^^^ (1#8 <<< k.val)] ++ r) ≠ 0#16 := fun hflip =>
  flipBit_ne b k (crc16_byte_inj (hflip.trans h.symm))

/-! ### VERIFY_CRC -/

theorem admits_of_le {bound : Bound} {m n : Nat} (h : m ≤ n) (ha : bound.admits n = true) : bound.admits m = true := by
  cases bound with
  | unbounded => rfl
  | atMost k => simpa [Bound.admits] using h.trans (by simpa [Bound.admits] using ha)

section VerifyCrc

variable {x : List Byte} {s : State} (hb : s.busy = false) (ha : s.cfg.maxPayload.admits x.length = true)
  (hx : x ≠ [])

include hb ha hx

theorem exec_verifyCrc : exec (.verifyCrc x) s = .next (conclude (verifyCrc x) (setCrcAcc (crc16 x) s)) := by
  simp only [exec, execVerifyCrc, acceptBytes_idle _ hb ha, computeCrc_nonEmpty _ hx]
  exact congrArg Host.Outcome.next (conclude_accepted _ (setCrcAcc (crc16 x) s))

theorem exec_verifyCrc_ok (hc : crc16 x = 0#16) :
    ∃ t, exec (.verifyCrc x) s = .next t ∧ t.rsp = ⟨0#4, stripCrc x⟩ :: s.rsp :=
  ⟨_, exec_verifyCrc hb ha hx, by simp [verifyCrc_ok hx hc]⟩

theorem exec_verifyCrc_mismatch (hc : crc16 x ≠ 0#16) :
    ∃ t, exec (.verifyCrc x) s = .next t ∧ t.rsp = ⟨5#4, stripCrc x⟩ :: s.rsp :=
  ⟨_, exec_verifyCrc hb ha hx, by simp [verifyCrc_mismatch hx hc, Failure.code]⟩

end VerifyCrc

/-! ### The frame of the codec commands and the reserved code -/

theorem acceptBytes_concludes {data : List Byte} {s t : State} {v : Verdict} {writes : State → State}
    (h : acceptBytes data s (fun u => .next (conclude v (writes u))) = .next t) :
    s.busy = false ∧ t = conclude v (writes (setBusy true s)) := by
  obtain ⟨hb, _, hk⟩ := acceptBytes_next.mp h
  cases hk
  exact ⟨hb, rfl⟩

/-- Accepting a command and computing its checksum write `BUSY` and `CRC_ACC`, and the outcome clears `BUSY`. -/
theorem conclude_computeCrc (v : Verdict) (data : List Byte) (s : State) :
    conclude v (computeCrc data (setBusy true s)) = conclude v (setCrcAcc (computeCrc data s).crcAcc s) := by
  rw [← conclude_accepted v (setCrcAcc _ s)]
  cases data <;> rfl

/-- The same of a walk over the input, which writes `ESC_PEND` and `walking`. -/
theorem conclude_walkBody (v : Verdict) (b : List Byte) (s : State) :
    conclude v (walkBody b (setBusy true s)) =
      conclude v (setEscPend (walkBody b s).escPend (setWalking (walkBody b s).walking s)) := by
  rw [← conclude_accepted v (setEscPend _ _)]
  cases b <;> rfl

theorem conclude_exchStep_zero (v : Verdict) {s : State} (h : s.exchStep = 0#3) : (conclude v s).exchStep = 0#3 := by
  cases v with
  | ok data => simpa using h
  | fail f data => simp

/-- The four codec commands and the reserved code. -/
def isCodec (i : Instr) : Prop :=
  (∃ p, i = .appendCrc p) ∨ (∃ x, i = .encodeFrame x) ∨ (∃ b, i = .decodeFrame b) ∨ (∃ x, i = .verifyCrc x) ∨
    i = .reservedOp7

/-- A codec command is an outcome and at most three writes: `CRC_ACC` by the two checksum commands, `ESC_PEND` and
`walking` by DECODE_FRAME. -/
theorem exec_codec {i : Instr} {s t : State} (h : exec i s = .next t) (hi : isCodec i) :
    s.busy = false ∧ ∃ (v : Verdict) (c : Half) (e w : Bool),
      t = conclude v (setCrcAcc c (setEscPend e (setWalking w s))) ∧
      ((∀ p, i ≠ .appendCrc p) → (∀ x, i ≠ .verifyCrc x) → c = s.crcAcc) ∧
      ((∀ b, i ≠ .decodeFrame b) → e = s.escPend ∧ w = s.walking) := by
  obtain ⟨p, rfl⟩ | ⟨x, rfl⟩ | ⟨b, rfl⟩ | ⟨x, rfl⟩ | rfl := hi
  · obtain ⟨hb, rfl⟩ := acceptBytes_concludes (v := appendCrc p) (writes := computeCrc p) h
    exact ⟨hb, _, (computeCrc p s).crcAcc, s.escPend, s.walking, conclude_computeCrc _ p s, by simp, by simp⟩
  · obtain ⟨hb, rfl⟩ := acceptBytes_concludes (v := encodeFrame x) (writes := id) h
    exact ⟨hb, _, s.crcAcc, s.escPend, s.walking, conclude_accepted _ s, by simp, by simp⟩
  · obtain ⟨hb, rfl⟩ := acceptBytes_concludes (v := decodeFrame b) (writes := walkBody b) h
    exact ⟨hb, _, s.crcAcc, (walkBody b s).escPend, (walkBody b s).walking, conclude_walkBody _ b s, by simp, by simp⟩
  · obtain ⟨hb, rfl⟩ := acceptBytes_concludes (v := verifyCrc x) (writes := computeCrc x) h
    exact ⟨hb, _, (computeCrc x s).crcAcc, s.escPend, s.walking, conclude_computeCrc _ x s, by simp, by simp⟩
  · simp only [exec, execReservedOp7, accept_next] at h
    obtain ⟨hb, h⟩ := h
    cases h
    exact ⟨hb, _, s.crcAcc, s.escPend, s.walking, conclude_accepted (.fail .illegalOp []) s, by simp, by simp⟩

end Sys2Proof.Machine

namespace Sys2Proof.Proofs

open Sys2Proof.Machine

/-- Settles O19: a codec command is an outcome and the writes of `exec_codec`, which none of the other fields sees. -/
theorem codecFrame : Obligations.CodecFrame := by
  intro i s t h hi
  obtain ⟨hb, v, c, e, w, rfl, hcrc, hwalk⟩ := exec_codec h hi
  refine ⟨?_, ?_, ?_, ?_, ?_, ?_, ?_, ?_, ?_, ?_, fun hs => conclude_exchStep_zero v hs, ?crc, ?walk, v.response, ?_⟩
  case crc => simpa using hcrc
  case walk => simpa using hwalk
  all_goals simp [hb]

/-- Settles O20: `crc16_pair_zero_iff` in both directions, and `crc16_flipBit_ne_zero`. -/
theorem checksumProperties : Obligations.ChecksumProperties :=
  ⟨fun p => (crc16_pair_zero_iff p _ _).mpr ⟨rfl, rfl⟩, fun p a b => (crc16_pair_zero_iff p a b).mp,
    fun _ _ _ k h => crc16_flipBit_ne_zero k h⟩

/-- Settles O21: the flipped sequence is as long, and its checksum is not 0. -/
theorem oneFlippedBitIsDetected : Obligations.OneFlippedBitIsDetected := by
  intro s l r b k hb ha hc
  obtain ⟨t, ht, hrsp⟩ :=
    exec_verifyCrc_mismatch hb (by simpa using ha) (by simp) (crc16_flipBit_ne_zero k hc)
  exact ⟨t, _, ht, hrsp⟩

/-- Settles O22: the two forms agree on every byte. -/
theorem tableFormComputesTheChecksum : Obligations.TableFormComputesTheChecksum := by
  intro s
  have hbyte : crcByteByTable = crcByte := funext₂ crcByteByTable_eq
  rw [crc16ByTable, hbyte, crc16]

/-- Settles O23: the checksum of no bytes is FF FF, so these are the two bytes that verify. -/
theorem shortInputsToVerify : Obligations.ShortInputsToVerify := by
  intro s hb ha
  refine ⟨fun a => ?one, fun a b => ?two⟩
  case one =>
    exact exec_verifyCrc_mismatch hb (admits_of_le (Nat.le_succ 1) ha) (by simp) (crc16_single_ne_zero a)
  case two =>
    have hpair : crc16 [a, b] = 0#16 ↔ a = 0xFF#8 ∧ b = 0xFF#8 := crc16_pair_zero_iff [] a b
    split
    case isTrue h => exact exec_verifyCrc_ok hb ha (by simp) (hpair.mpr h)
    case isFalse h => exact exec_verifyCrc_mismatch hb ha (by simp) (mt hpair.mp h)

/-- Settles O25: `exec_verifyCrc` with either verdict. -/
theorem verifyCrcResult : Obligations.VerifyCrcResult := by
  intro x s hb ha hx
  rw [exec_verifyCrc hb ha hx, ← stripCrc_eq_take]
  constructor
  · intro hc
    rw [verifyCrc_ok hx hc, hc, conclude_ok_idle _ (by simpa using hb)]
    rfl
  · intro hc
    rw [verifyCrc_mismatch hx hc, conclude, takeFailure_idle _ _ (by simpa using hb)]
    rfl

end Sys2Proof.Proofs

/-! PROOFS. The round trip (41_escape_wrap.md R66): decoding undoes escaping, the self-check undoes the checksum, and so
`decode` of `encode`'s wire format is the payload; and R67: what no frame contains, what escaping costs where nothing is
reserved, and which bodies decode to themselves. -/

namespace Sys2Proof.Machine

/-! ### Decoding undoes escaping -/

theorem decodeWalk_escape (x : List Byte) : decodeWalk (escape x) = ⟨false, x⟩ := by
  induction x with
  | nil => rfl
  | cons b x ih =>
    rw [escape_cons]
    obtain ⟨hr, hbytes⟩ | ⟨_, hbytes⟩ := escapeByte_cases b <;> rw [hbytes]
    · have hb : b ≠ ESC := by
        rintro rfl
        exact absurd hr (by decide)
      rw [List.singleton_append, decodeWalk_literal _ hb, ih]
    · rw [List.cons_append, List.singleton_append, decodeWalk_pair, escapeOperand_twice, ih]

theorem decodeFrame_escape {x : List Byte} (h : x ≠ []) : decodeFrame (escape x) = .ok x :=
  decodeFrame_eq_ok.mpr ⟨escape_ne_nil h, decodeWalk_escape x⟩

/-! ### The self-check undoes the checksum -/

theorem append_crc16LE_ne_nil (p : List Byte) : p ++ crc16LE p ≠ [] := by simp [crc16LE]

/-- The empty payload, which APPEND_CRC refuses, is let in: a peer may send it (40_checksum.md R59). -/
theorem verifyCrc_append_crc16LE (p : List Byte) : verifyCrc (p ++ crc16LE p) = .ok p := by
  have hzero : crc16 (p ++ crc16LE p) = 0#16 := (crc16_pair_zero_iff p _ _).mpr ⟨rfl, rfl⟩
  rw [verifyCrc_ok (append_crc16LE_ne_nil p) hzero, crc16LE, stripCrc_append]

/-- `decode(B)` gives the payload back (30_encoding.md R55 (e)). -/
theorem decodeReply_escape (p : List Byte) : decodeReply (escape (p ++ crc16LE p)) = .ok p := by
  rw [decodeReply, decodeFrame_escape (append_crc16LE_ne_nil p)]
  exact verifyCrc_append_crc16LE p

/-! ### Bytes that need no escaping -/

theorem escape_of_not_reserved {x : List Byte} (h : ∀ b ∈ x, reserved b = false) : escape x = x := by
  induction x with
  | nil => rfl
  | cons b x ih =>
    obtain ⟨hb, hx⟩ := List.forall_mem_cons.mp h
    rw [escape_cons, ih hx, escapeByte, hb]
    rfl

theorem decodeWalk_of_no_marker {b : List Byte} (h : ESC ∉ b) : decodeWalk b = ⟨false, b⟩ := by
  induction b with
  | nil => rfl
  | cons c b ih =>
    obtain ⟨hc, hb⟩ := List.ne_and_not_mem_of_not_mem_cons h
    rw [decodeWalk_literal _ (Ne.symm hc), ih hb]

/-- A pair's second byte is the partner of a reserved byte (30_encoding.md R43). -/
theorem reserved_of_pairOperand {c : Byte} (h : pairOperand c) : reserved (escapeOperand c) = true := by
  obtain rfl | rfl | rfl := h <;> rfl

/-- An index of a frame is the first, the last, or one of the escaped body. -/
theorem wrap_index_cases {e : List Byte} {i : Nat} (h : i < (wrap e).length) :
    i = 0 ∨ i = e.length + 1 ∨ ∃ j, i = j + 1 ∧ j < e.length := by
  rw [wrap_length] at h
  obtain rfl | h0 := Nat.eq_zero_or_pos i
  · exact .inl rfl
  · by_cases hlast : i = e.length + 1
    · exact .inr (.inl hlast)
    · exact .inr (.inr (wrap_index_inside h0 (by rw [wrap_length]; omega)))

/-- The second byte of a pair stands inside the frame too. -/
theorem wrap_marker_followed {x : List Byte} {j : Nat} (h : (escape x)[j]? = some ESC) :
    ∃ c, (wrap (escape x))[j + 2]? = some c ∧ pairOperand c := by
  obtain ⟨c, hc, hop⟩ := escape_marker_followed h
  have hlt := (List.getElem?_eq_some_iff.mp hc).1
  exact ⟨c, (wrap_inside hlt).trans hc, hop⟩

end Sys2Proof.Machine

namespace Sys2Proof.Proofs

open Sys2Proof.Machine

/-- Settles O31: the two halves, put together through the frame's delimiters. -/
theorem roundTrip : Obligations.RoundTrip := by
  refine ⟨fun p hp => ?payload, fun x hx => decodeFrame_escape hx, fun p x h => ?checksum⟩
  case payload =>
    have hne := append_crc16LE_ne_nil p
    refine ⟨_, _, appendCrc_ok hp, encodeFrame_ok hne, ?_, verifyCrc_append_crc16LE p⟩
    rw [stripDelims_wrap, decodeFrame_escape hne]
  case checksum =>
    obtain ⟨_, rfl⟩ := appendCrc_eq_ok.mp h
    exact verifyCrc_append_crc16LE p

/-- Settles O32: a frame's bytes by their place in it, with `escape_no_delimiter` and `wrap_marker_followed` inside. -/
theorem escapingIsCompleteAndFree : Obligations.EscapingIsCompleteAndFree := by
  refine ⟨fun x f h i hi => ?complete, fun x hx hfree => ?free, fun b hb hm => ?body⟩
  case complete =>
    obtain ⟨_, rfl⟩ := encodeFrame_eq_ok.mp h
    obtain rfl | rfl | ⟨j, rfl, hj⟩ := wrap_index_cases hi
    · rw [wrap_first]
      exact ⟨fun _ => rfl, fun hc => absurd hc (by decide), fun hc => absurd hc (by decide)⟩
    · rw [wrap_last, wrap_length]
      exact ⟨fun hc => absurd hc (by decide), fun _ => rfl, fun hc => absurd hc (by decide)⟩
    · rw [wrap_inside hj]
      refine ⟨fun hc => ?_, fun hc => ?_, fun hc => ?_⟩
      · exact absurd rfl (escape_no_delimiter (List.mem_of_getElem? hc)).1
      · exact absurd rfl (escape_no_delimiter (List.mem_of_getElem? hc)).2
      · obtain ⟨c, hnext, hop⟩ := wrap_marker_followed hc
        exact ⟨c, hnext, reserved_of_pairOperand hop⟩
  case free =>
    rw [encodeFrame_ok hx, escape_of_not_reserved hfree]
    rfl
  case body => exact decodeFrame_eq_ok.mpr ⟨hb, decodeWalk_of_no_marker hm⟩

end Sys2Proof.Proofs

/-! PROOFS. A whole EXCHANGE whose write is accepted (43_exchange.md R76): its head begins a receive, and the run over
the reads which that receive consumes ends with `decodeReply` of the body; a peer's frame so gives back the peer's
payload (42_receive.md R72). -/

namespace Sys2Proof.Machine

open Sys2Proof.Safety

/-- What EXCHANGE leaves when the transport has taken all of `frame`: step 4 at its beginning, with that one write in
the record of calls. -/
def replyAwaited (s u : State) (frame : List Byte) : Prop :=
  u.receiving = true ∧ u.exchStep = 4#3 ∧ u.caller = [] ∧ u.cfg = s.cfg ∧ receiveAtRest u ∧ u.rsp = s.rsp ∧
    u.line.reads = s.line.reads ∧ u.line.log = .wrote frame (.written frame.length) :: s.line.log

section AcceptedCommand

variable {s : State} {q : List Byte} (hb : s.busy = false) (ho : s.opened = true)
  (hc : s.caller = [.call ⟨5#3, .bytes q⟩]) (ha : s.cfg.maxPayload.admits q.length = true)

include hb ho hc ha

theorem step_exchange : step s = .next (exchangeHead q (setBusy true (setCaller [] s))) :=
  (step_call (i := .exchange q) hb hc rfl).trans (exec_exchange (s := setCaller [] s) hb ho ha)

variable {frame : List Byte} {ws : List WriteResult} (hf : encodeRequest q = .ok frame)
  (hw : s.line.writes = .written frame.length :: ws)

include hf hw

/-- The first step of an EXCHANGE whose write is accepted in full (43_exchange.md R76, log 2). -/
theorem exchange_begins : ∃ u, step s = .next u ∧ replyAwaited s u frame := by
  refine ⟨_, step_exchange hb ho hc ha, ?_⟩
  obtain ⟨hcfg, _, hcaller, _, _, ⟨rfl, _⟩ | ⟨_, frame', w, hf', hline, hanswer, hwrite⟩⟩ :=
    exchangeHead_cases q (setBusy true (setCaller [] s))
  · cases hf
  obtain rfl : frame = frame' := by simpa [hf] using hf'
  obtain rfl : w = .written frame.length := by
    rw [hanswer, write_scripted (t := (setBusy true (setCaller [] s)).line) hw, clipWrite_full]
  obtain ⟨_, hbusy, hstep, hrest, hrsp⟩ | ⟨hshort, _⟩ := hwrite
  · exact ⟨receiving_iff.mpr ⟨hbusy, .inr hstep⟩, hstep, hcaller, hcfg, hrest, hrsp, by simp [hline], by simp [hline]⟩
  · exact absurd rfl hshort

/-- EXCHANGE over the reads that its loop consumes when they bring a body: the write, then one step a read, and steps
5 and 6 on the body (43_exchange.md R76, log 2). -/
theorem exchange_ends {body : List Byte} {reads rest : List ReadResult} (hq : s.line.reads = reads ++ rest)
    (hr : ∀ r ∈ reads, r.within s.cfg.readCapacity = true)
    (hl : receiveLoop reads (receiveInit s) = some (.ok body, [])) :
    ∃ t, runsTo (reads.length + 1) s t ∧ t.busy = false ∧ t.rsp = (decodeReply body).response :: s.rsp ∧
      t.line.reads = rest ∧
      t.line.log = (reads.map (.read s.cfg.readCapacity)).reverse ++
        .wrote frame (.written frame.length) :: s.line.log := by
  obtain ⟨u, hstep, hrec, hfour, hcaller, hcfg, ⟨hrx, hcnt, hmem⟩, hrsp, hreads, hlog⟩ :=
    exchange_begins hb ho hc ha hf hw
  have hlu : receiveLoop reads u = some (.ok body, []) := by
    rw [← hl]
    exact receiveLoop_congr reads ⟨hcfg, hrx, hcnt, hmem⟩
  obtain ⟨t, hrun, hbusy, _, _, hrsp', hreads', hlog'⟩ :=
    receive_ends hrec hcaller (hreads.trans hq) (by rwa [hcfg]) hlu
  have hverdict : closingVerdict u (.ok body) = decodeReply body := if_pos hfour
  exact ⟨t, runsTo_succ hstep hrun, hbusy, by rw [hrsp', hverdict, hrsp], hreads', by rw [hlog', hcfg, hlog]⟩

end AcceptedCommand

theorem end_not_mem_escape (x : List Byte) : END ∉ escape x := fun h => (escape_no_delimiter h).2 rfl

end Sys2Proof.Machine

namespace Sys2Proof.Proofs

open Sys2Proof.Machine Sys2Proof.Safety

/-- Settles O53: the loop finds the peer's body, and `decodeReply` undoes the peer's `encode`. -/
theorem exchangeReturnsThePeersPayload : Obligations.ExchangeReturnsThePeersPayload := by
  intro s q p frame ws init rest last g t hb ho hc _ ha hf hw hq hreads hdata ht hg hroom hn
  have hl := receiveLoop_finds (s := receiveInit s) (b := escape (p ++ crc16LE p)) rfl rfl
    (fun _ r hr => (hreads r (List.mem_append_left _ hr)).2) (by simpa [wrap] using hdata) ht hg
    (end_not_mem_escape _) hroom hn
  obtain ⟨u, hrun, hbusy, hrsp, hrest, hlog⟩ :=
    exchange_ends hb ho hc ha hf hw hq (fun r hr => (hreads r hr).1) hl
  rw [decodeReply_escape] at hrsp
  refine ⟨u, _, by simpa using hrun, hbusy, hrsp, hrest, hlog, by simp, fun c hmem => ?_⟩
  obtain ⟨r, _, rfl⟩ := List.mem_map.mp (List.mem_reverse.mp hmem)
  exact ⟨r, rfl⟩

end Sys2Proof.Proofs

/-! PROOFS. The whole of a receive (42_receive.md R68 to R71, 70_reset_and_hazards.md R110): its entry, a read taken
byte by byte by the byte-class rows, and RECEIVE_FRAME's run as the function of the script of reads (43_exchange.md
R79). -/

namespace Sys2Proof.Machine

open Sys2Proof.Safety

/-! ### RECEIVE_FRAME on a stream that is not open -/

theorem exec_receiveFrame_closed {s : State} (hb : s.busy = false) (ho : s.opened = false) :
    exec .receiveFrame s = .next (setRsp (⟨9#4, []⟩ :: s.rsp) (setExchStep 0#3 s)) :=
  calc exec .receiveFrame s
    _ = .next (conclude (.fail .notOpen []) (setBusy true s)) := by simp [exec, execReceiveFrame, hb, ho, conclude]
    _ = .next (takeFailure false .notOpen [] s) := by rw [conclude_accepted, conclude]
    _ = _ := by rw [takeFailure_idle _ _ hb]; rfl

/-! ### A read, byte by byte -/

@[simp] theorem rxByte_receiving (b : Byte) (s : State) : (rxByte b s).1.receiving = s.receiving := by
  rw [rxByte_frame]; rfl

/-- Inside a receive the row of a byte is the receive machine's step on that byte (30_encoding.md R46). -/
theorem exec_decodeRxByte {s : State} (b : Byte) (h : s.receiving = true) :
    exec (decodeRxByte s.rxState b) s = .next (resume (rxByte b s)) := by
  cases hr : s.rxState with
  | waitingForStart =>
    by_cases hb : b = START
    · subst hb
      rw [rxByte_start hr]
      exact exec_rxStart h hr
    · simpa [decodeRxByte, hb, rxByte_noise hr hb] using exec_rxNoise_next.mpr ⟨hb, h, hr, rfl⟩
  | capturing =>
    by_cases hb : b = END
    · subst hb
      rw [rxByte_end hr]
      exact exec_rxEnd h hr
    · simpa [decodeRxByte, hb] using exec_rxBody_next.mpr ⟨hb, h, hr, rfl⟩

/-- Bytes offered one by one are judged as the bytes of one read: the rows stop where `rxBytes` does, since the byte
that ends the receive leaves the block idle. -/
theorem execBytes_eq {bs : List Byte} {s : State} (h : s.receiving = true) :
    execBytes bs s = .next (resume (rxBytes bs s)) := by
  induction bs generalizing s with
  | nil => rfl
  | cons b bs ih =>
    have hrec : (rxByte b s).1.receiving = true := (rxByte_receiving b s).trans h
    simp only [execBytes, exec_decodeRxByte b h]
    by_cases hy : (rxByte b s).2 = .goOn
    · have hres : resume (rxByte b s) = (rxByte b s).1 := by
        rw [← Prod.mk.eta (p := rxByte b s), hy, resume_continue]
      rw [hres, if_pos hrec, ih hrec, rxBytes_cons_continue hy]
    · obtain ⟨_, hbusy, _⟩ := resume_ends hrec hy
      rw [rxBytes_cons_end hy, if_neg (by simp [State.receiving, hbusy])]

/-! ### Reads that end nothing -/

/-- The receive after reads none of which ended it. -/
def afterReads (reads : List ReadResult) (s : State) : State := reads.foldl (fun u r => (rxRead r u).1) s

@[simp] theorem afterReads_nil (s : State) : afterReads [] s = s := rfl

@[simp] theorem afterReads_cons (r : ReadResult) (reads : List ReadResult) (s : State) :
    afterReads (r :: reads) s = afterReads reads (rxRead r s).1 := rfl

theorem sameCapture.trans {s t u : State} (h : sameCapture s t) (h' : sameCapture t u) : sameCapture s u := by
  obtain ⟨hcfg, hrx, hcnt, hmem⟩ := h
  obtain ⟨hcfg', hrx', hcnt', hmem'⟩ := h'
  exact ⟨hcfg.trans hcfg', hrx.trans hrx', hcnt.trans hcnt', hmem.trans hmem'⟩

theorem afterReads_congr (reads : List ReadResult) {s t : State} (h : sameCapture s t) :
    sameCapture (afterReads reads s) (afterReads reads t) := by
  induction reads generalizing s t with
  | nil => exact h
  | cons r reads ih => exact ih (rxRead_congr r h).1

/-- A loop that goes on past its first read goes on after it. -/
theorem receiveLoop_cons_none {r : ReadResult} {rs : List ReadResult} {s : State} (h : receiveLoop (r :: rs) s = none) :
    (rxRead r s).2 = .goOn ∧ receiveLoop rs (rxRead r s).1 = none := by
  cases hy : (rxRead r s).2 with
  | goOn => exact ⟨rfl, by rwa [receiveLoop_cons_goOn hy] at h⟩
  | done body => simp [receiveLoop_cons_done hy] at h
  | raised f => simp [receiveLoop_cons_raised hy] at h

/-- What a receive that goes on leaves, when reads have left only `rest` in the queue. -/
def receiveGoesOn (s t : State) (rest : List ReadResult) : Prop :=
  t.receiving = true ∧ t.rsp = s.rsp ∧ t.line.reads = rest

/-- The machine over reads that end nothing: the receive runs on, and nothing was delivered
(70_reset_and_hazards.md R110). -/
theorem receive_goes_on {reads rest : List ReadResult} {s : State} (h : s.receiving = true) (hc : s.caller = [])
    (hq : s.line.reads = reads ++ rest) (hw : ∀ r ∈ reads, r.within s.cfg.readCapacity = true)
    (hl : receiveLoop reads s = none) :
    ∃ t, runsTo reads.length s t ∧ receiveGoesOn s t rest ∧ sameCapture t (afterReads reads s) := by
  induction reads generalizing s with
  | nil => exact ⟨s, runsTo_zero s, ⟨h, rfl, hq⟩, rfl, rfl, rfl, rfl⟩
  | cons r reads ih =>
    obtain ⟨hwr, hws⟩ := List.forall_mem_cons.mp hw
    obtain ⟨hy, hl⟩ := receiveLoop_cons_none hl
    have hstep := step_scripted_read h hc hq hwr
    rw [hy, resume_continue] at hstep
    have hsame : sameCapture (setLine (lineAfter r (reads ++ rest) s) (rxRead r s).1) (rxRead r s).1 :=
      ⟨rfl, rfl, rfl, rfl⟩
    obtain ⟨t, hrun, ⟨hrec, hrsp, hreads⟩, hcap⟩ :=
      ih (s := setLine (lineAfter r (reads ++ rest) s) (rxRead r s).1) ((rxRead_receiving r s).trans h)
        ((rxRead_caller r s).trans hc) rfl (by simpa using hws) ((receiveLoop_congr reads hsame).trans hl)
    exact ⟨t, runsTo_succ hstep hrun, ⟨hrec, hrsp.trans (rxRead_rsp r s), hreads⟩,
      hcap.trans (afterReads_congr reads hsame)⟩

theorem not_mem_flatten {b : Byte} {chunks : List (List Byte)} (h : ∀ c ∈ chunks, b ∉ c) :
    b ∉ chunks.flatten := by
  simpa [List.mem_flatten, imp_not_comm] using h

/-- Non-empty reads whose bytes end nothing leave the receive as their bytes in one piece do. -/
theorem nonEmpty_reads_pass {chunks : List (List Byte)} {s : State} (hne : ∀ c ∈ chunks, c ≠ [])
    (hgo : (rxBytes chunks.flatten s).2 = .goOn) :
    receiveLoop (chunks.map .bytes) s = none ∧
      ∃ n, afterReads (chunks.map .bytes) s = setEmptyCnt n (rxBytes chunks.flatten s).1 := by
  induction chunks generalizing s with
  | nil => exact ⟨rfl, s.emptyCnt, rfl⟩
  | cons c chunks ih =>
    obtain ⟨hc, hne⟩ := List.forall_mem_cons.mp hne
    rw [List.flatten_cons] at hgo ⊢
    have hhead := rxBytes_goOn_of_prefix (List.prefix_append _ _) hgo
    rw [rxBytes_append_goOn hhead] at hgo ⊢
    have hread : rxRead (.bytes c) s = (setEmptyCnt 0#2 (rxBytes c s).1, .goOn) := by
      rw [rxRead_data (r := .bytes c) s hc]
      exact Prod.ext rfl hhead
    obtain ⟨hl, n, hafter⟩ := ih (s := setEmptyCnt 0#2 (rxBytes c s).1) hne (by rwa [rxBytes_setEmptyCnt])
    refine ⟨?_, n, ?_⟩
    · rw [List.map_cons, receiveLoop_cons_goOn (by rw [hread]), hread]
      exact hl
    · rw [List.map_cons, afterReads_cons, hread, hafter, rxBytes_setEmptyCnt]
      rfl

/-! ### RECEIVE_FRAME as a function of the script of reads -/

/-- A loop that ends has consumed the front of the script, and on that part alone ends alike (43_exchange.md R79). -/
theorem receiveLoop_consumes {reads rest : List ReadResult} {s : State} {v : Verdict}
    (h : receiveLoop reads s = some (v, rest)) :
    ∃ used, reads = used ++ rest ∧ receiveLoop used s = some (v, []) := by
  induction reads generalizing s with
  | nil => simp [receiveLoop] at h
  | cons r reads ih =>
    cases hy : (rxRead r s).2 with
    | goOn =>
      rw [receiveLoop_cons_goOn hy] at h
      obtain ⟨used, rfl, hused⟩ := ih h
      exact ⟨r :: used, rfl, (receiveLoop_cons_goOn hy).trans hused⟩
    | done body =>
      obtain ⟨rfl, rfl⟩ : Verdict.ok body = v ∧ reads = rest := by simpa [receiveLoop_cons_done hy] using h
      exact ⟨[r], rfl, receiveLoop_cons_done hy⟩
    | raised f =>
      obtain ⟨rfl, rfl⟩ : Verdict.fail f [] = v ∧ reads = rest := by simpa [receiveLoop_cons_raised hy] using h
      exact ⟨[r], rfl, receiveLoop_cons_raised hy⟩

theorem receiveOn_opened (reads : List ReadResult) {s : State} (ho : s.opened = true) :
    receiveOn reads s = receiveLoop reads (receiveInit s) := if_pos ho

theorem receiveOn_closed (reads : List ReadResult) {s : State} (ho : s.opened = false) :
    receiveOn reads s = some (.fail .notOpen [], reads) := by simp [receiveOn, ho]

section ReceiveFrame

variable {s : State} {d : DataIn} (hb : s.busy = false) (hc : s.caller = [.call ⟨4#3, d⟩])

include hb hc

theorem step_receiveFrame_closed (ho : s.opened = false) :
    step s = .next (setRsp (⟨9#4, []⟩ :: s.rsp) (setExchStep 0#3 (setCaller [] s))) :=
  (step_call hb hc (decode_receiveFrame _ d)).trans (exec_receiveFrame_closed (s := setCaller [] s) hb ho)

/-- RECEIVE_FRAME over reads that end nothing: the entry, then one step a read (42_receive.md R70, log 2). -/
theorem receiveFrame_goes_on {reads rest : List ReadResult} (ho : s.opened = true)
    (hq : s.line.reads = reads ++ rest) (hw : ∀ r ∈ reads, r.within s.cfg.readCapacity = true)
    (hl : receiveLoop reads (receiveInit s) = none) :
    ∃ t, runsTo (reads.length + 1) s t ∧ receiveGoesOn s t rest := by
  obtain ⟨t, hrun, hon, _⟩ :=
    receive_goes_on (s := receiveInit (setExchStep 0#3 (setBusy true (setCaller [] s)))) rfl rfl hq hw
      (by rw [← hl]; exact receiveLoop_congr reads ⟨rfl, rfl, rfl, rfl⟩)
  exact ⟨t, runsTo_succ (step_receiveFrame hb ho hc) hrun, hon⟩

end ReceiveFrame

/-! ### A silent line -/

/-- Two empty reads are counted, and the loop goes on (42_receive.md R69). -/
theorem receiveLoop_two_empty (rest : List ReadResult) {s : State} (h : s.emptyCnt = 0#2) :
    receiveLoop (.bytes [] :: .bytes [] :: rest) s = receiveLoop rest (setEmptyCnt 2#2 s) := by
  have hfirst : rxRead (.bytes []) s = (setEmptyCnt 1#2 s, .goOn) := by
    rw [rxRead, rxEmpty_continue (by rw [h]; decide), h]; rfl
  have hsecond : rxRead (.bytes []) (setEmptyCnt 1#2 s) = (setEmptyCnt 2#2 s, .goOn) :=
    rxEmpty_continue (s := setEmptyCnt 1#2 s) (by simp)
  rw [receiveLoop_cons_goOn (by rw [hfirst]), hfirst, receiveLoop_cons_goOn (by rw [hsecond]), hsecond]

/-- The third ends it (42_receive.md R71). -/
theorem receiveLoop_three_empty {s : State} (h : s.emptyCnt = 0#2) :
    receiveLoop [.bytes [], .bytes [], .bytes []] s = some (.fail .receiveTimeout [], []) := by
  have hthird : rxRead (.bytes []) (setEmptyCnt 2#2 s) = (setEmptyCnt 3#2 s, .raised .receiveTimeout) :=
    rxEmpty_expired (s := setEmptyCnt 2#2 s) rfl
  rw [receiveLoop_two_empty _ h, receiveLoop_cons_raised (by rw [hthird])]

end Sys2Proof.Machine

namespace Sys2Proof.Proofs

open Sys2Proof.Machine Sys2Proof.Safety

/-- Settles O39: the two entries of RECEIVE_FRAME, by `OPENED`. -/
theorem receiveFrameEntry : Obligations.ReceiveFrameEntry :=
  fun _ hb => ⟨fun ho => exec_receiveFrame hb ho, fun ho => exec_receiveFrame_closed hb ho⟩

/-- Settles O43: RX_END leads into the tail of the EXCHANGE, from a receive at rest. -/
theorem endDelimiterFinishesTheExchange : Obligations.EndDelimiterFinishesTheExchange := by
  intro s hb hstep hr
  refine ⟨_, exec_rxEnd (receiving_iff.mpr ⟨hb, .inr hstep⟩) hr, ?_⟩
  rw [resume_done_exchange _ hstep]
  obtain ⟨hrsp, hbusy, hzero, hcfg, hopened, hline, hcaller, hmem, hrx, hcnt, hout, hx, hf, hbody⟩ :=
    exchangeTail_effect s.mem.capBuf (receiveInit s)
  obtain ⟨hwalking, _⟩ := exchangeTail_walk s.mem.capBuf (receiveInit s)
  exact ⟨hrsp, ⟨hrx, hcnt, hmem⟩, hbusy, hzero, hopened, hcfg, hout, hline, hcaller, hx, hf, hbody, hwalking⟩

/-- Settles O45: a read and its bytes offered row by row are both `rxBytes`. -/
theorem readIsItsBytesRowByRow : Obligations.ReadIsItsBytesRowByRow := by
  intro bs s hs hne hlen
  have hread := exec_rxRead_nonEmpty hs hne hlen
  exact ⟨⟨_, hread⟩, hread.trans (execBytes_eq (s := setEmptyCnt 0#2 s) hs).symm⟩

/-- Settles O47: two empty reads leave the loop running, and the third ends it. -/
theorem silentLineTimesOutAfterThreeReads : Obligations.SilentLineTimesOutAfterThreeReads := by
  intro s d rest hb ho hc hq
  obtain ⟨t, hrun, hrec, hrsp, _⟩ :=
    receiveFrame_goes_on (rest := .bytes [] :: rest) hb hc ho hq (by simp [ReadResult.within])
      (receiveLoop_two_empty [] rfl)
  obtain ⟨u, hrun', hbusy, _, hrest, hrsp', hreads, hlog⟩ :=
    receiveFrame_ends hb ho hc hq (by simp [ReadResult.within]) (receiveLoop_three_empty rfl)
  exact ⟨⟨t, hrun, (receiving_iff.mp hrec).1, hrsp⟩, u, hrun', hbusy, hrsp', hreads, hrest, hlog⟩

/-- Settles O49: the bytes of all the reads in one piece are noise, or fit into the buffer. -/
theorem receiveNeedNotEnd : Obligations.ReceiveNeedNotEnd := by
  intro s chunks rest hs hc hq hchunks hbytes
  have hpass : (rxBytes chunks.flatten s).2 = .goOn ∧ (rxBytes chunks.flatten s).1.rxState = s.rxState ∧
      (s.rxState = .capturing → (rxBytes chunks.flatten s).1.mem.capBuf = s.mem.capBuf ++ chunks.flatten) := by
    obtain ⟨hr, hnoise⟩ | ⟨hr, hroom, hbody⟩ := hbytes
    · rw [rxBytes_noise hr (not_mem_flatten hnoise)]
      exact ⟨rfl, rfl, fun h => by simp [hr] at h⟩
    · rw [rxBytes_body hr (not_mem_flatten hbody) (by rw [hroom]; rfl)]
      exact ⟨rfl, rfl, fun _ => rfl⟩
  obtain ⟨hgo, hrx, hbuf⟩ := hpass
  obtain ⟨hl, n, hafter⟩ := nonEmpty_reads_pass (fun c hm => (hchunks c hm).1) hgo
  obtain ⟨t, hrun, ⟨hrec, hrsp, hreads⟩, _, hrx', _, hmem'⟩ := receive_goes_on hs hc hq
    (by simpa [ReadResult.within] using fun c hm => (hchunks c hm).2) hl
  rw [hafter] at hrx' hmem'
  exact ⟨t, by simpa using hrun, hrec, hrsp, hreads, hrx'.trans hrx, fun h => by rw [hmem']; exact hbuf h⟩

/-- Settles O50: by `OPENED`, then by whether the loop ends within the script. -/
theorem receiveRunIsTheScriptFunction : Obligations.ReceiveRunIsTheScriptFunction := by
  intro s d hb hc hw
  cases ho : s.opened with
  | false =>
    rw [receiveOn_closed _ ho]
    refine ⟨?_, by simp⟩
    rintro _ _ ⟨⟩
    exact ⟨0, _, runsTo_succ (step_receiveFrame_closed hb hc ho) (runsTo_zero _), Nat.zero_add _, rfl, rfl, hb, rfl⟩
  | true =>
    rw [receiveOn_opened _ ho]
    constructor
    · intro v rest hl
      obtain ⟨used, hq, hused⟩ := receiveLoop_consumes hl
      obtain ⟨t, hrun, hbusy, hzero, _, hrsp, hreads, _⟩ := receiveFrame_ends hb ho hc hq
        (fun r hr => hw r (by rw [hq]; exact List.mem_append_left _ hr)) hused
      exact ⟨_, t, hrun, by rw [hq, List.length_append], hrsp, hreads, hbusy, hzero⟩
    · intro hl
      exact receiveFrame_goes_on hb hc ho (List.append_nil _).symm hw hl

end Sys2Proof.Proofs

/-! PROOFS. EXCHANGE as the function of its input, of the write result and of the script of reads (43_exchange.md R76,
R79): its first step is the whole of it, or begins the receive of step 4, whose run over the script is the loop's; and
the two commands that fail without a look at their input (R77, R89). -/

namespace Sys2Proof.Machine

open Sys2Proof.Safety

/-! ### Commands that fail at once -/

/-- A command that fails as soon as it is accepted leaves its outcome and `EXCH_STEP` at 0 (60_exceptions.md R91). -/
theorem takeFailure_accepted (f : Failure) (data : List Byte) {s : State} (hb : s.busy = false) :
    takeFailure false f data (setBusy true s) = setRsp (⟨f.code, data⟩ :: s.rsp) (setExchStep 0#3 s) :=
  (conclude_accepted (.fail f data) s).trans (takeFailure_idle f data hb)

theorem exec_exchange_closed {q : List Byte} {s : State} (hb : s.busy = false) (ho : s.opened = false)
    (ha : s.cfg.maxPayload.admits q.length = true) :
    exec (.exchange q) s = .next (setRsp (⟨9#4, []⟩ :: s.rsp) (setExchStep 0#3 s)) := by
  simp [exec, execExchange, hb, ha, ho, takeFailure_accepted, Failure.code]

theorem exec_reservedOp7 {s : State} (hb : s.busy = false) :
    exec .reservedOp7 s = .next (setRsp (⟨10#4, []⟩ :: s.rsp) (setExchStep 0#3 s)) := by
  simp [exec, execReservedOp7, hb, takeFailure_accepted, Failure.code]

theorem setExchStep_zero {s : State} (h : s.exchStep = 0#3) : setExchStep 0#3 s = s := by
  rw [← h]; rfl

/-! ### A block that nobody asks anything -/

@[simp] theorem resume_caller (s : State) (y : RxYield) : (resume (s, y)).caller = s.caller := by
  cases y with
  | goOn => rfl
  | raised f => simp
  | done body =>
    by_cases h : s.exchStep = 4#3
    · obtain ⟨_, _, _, _, _, _, hcaller, _⟩ := exchangeTail_effect body (receiveInit s)
      simp [resume_done_exchange body h, hcaller]
    · simp [resume_done_receive body h]

/-- A receive that is not over after a read or a byte is the same operation's. -/
theorem resume_exchStep {s : State} {y : RxYield} (hs : s.receiving = true) (ht : (resume (s, y)).busy = true) :
    (resume (s, y)).exchStep = s.exchStep := by
  by_cases hy : y = .goOn
  · rw [hy, resume_continue]
  · obtain ⟨_, hbusy, _⟩ := resume_ends hs hy
    simp [hbusy] at ht

/-- Without a caller's event the block only goes on with the operation that runs (10_state.md R9). -/
theorem step_unasked {s t : State} (hc : s.caller = []) (h : step s = .next t) :
    t.caller = [] ∧ (t.busy = true → s.busy = true ∧ t.exchStep = s.exchStep) := by
  rw [step_of_nothing hc] at h
  cases hb : s.busy with
  | false =>
    rw [hb] at h
    obtain rfl : s = t := by simpa using h
    exact ⟨hc, fun ht => by simp [hb] at ht⟩
  | true =>
    rw [hb, if_pos rfl, runOwnRead, exec, execRxRead, receiveRow_next] at h
    obtain ⟨_, hs, _, rfl⟩ := h
    exact ⟨(resume_caller _ _).trans ((rxRead_caller _ _).trans hc), fun ht =>
      ⟨rfl, (resume_exchStep ((rxRead_receiving _ _).trans hs) ht).trans (rxRead_exchStep _ _)⟩⟩

theorem core_run_first (M : Host.Core) {n : Nat} {s t : M.State} (h : M.run (n + 1) s = .next t) :
    ∃ u, M.step s = .next u ∧ M.run n u = .next t := by
  cases hstep : M.step s with
  | next u => exact ⟨u, rfl, (core_run_succ M hstep).symm.trans h⟩
  | fault _ | refused _ => simp [Host.Core.run, hstep] at h

/-- A run has a first step. -/
theorem runsTo_first {n : Nat} {s t : State} (h : runsTo (n + 1) s t) : ∃ u, step s = .next u ∧ runsTo n u t :=
  core_run_first Sys2Proof.core h

/-- What runs at the end of such a run has run from its beginning. -/
theorem runsTo_unasked {n : Nat} {s t : State} (hc : s.caller = []) (h : runsTo n s t) (ht : t.busy = true) :
    s.busy = true ∧ t.exchStep = s.exchStep := by
  induction n generalizing s with
  | zero =>
    obtain rfl : s = t := Host.Outcome.next.inj h
    exact ⟨ht, rfl⟩
  | succ n ih =>
    obtain ⟨u, hstep, hrun⟩ := runsTo_first h
    obtain ⟨hcaller, hkept⟩ := step_unasked hc hstep
    obtain ⟨hbusy, hexch⟩ := ih hcaller hrun
    obtain ⟨hbusy', hexch'⟩ := hkept hbusy
    exact ⟨hbusy', hexch.trans hexch'⟩

/-! ### EXCHANGE over a script, case by case -/

/-- What EXCHANGE answers when the receive of its step 4 ends with a verdict (43_exchange.md R76). -/
def replyVerdict : Verdict → Verdict
  | .ok body => decodeReply body
  | .fail f data => .fail f data

/-- It is how the machine ends an operation in step 4. -/
theorem closingVerdict_exchange {s : State} (h : s.exchStep = 4#3) (v : Verdict) :
    closingVerdict s v = replyVerdict v := by
  cases v with
  | ok body => exact if_pos h
  | fail f data => rfl

section ScriptFunction

variable {q : List Byte} {s : State} (reads : List ReadResult)

theorem exchangeOn_closed (w : WriteResult) (ho : s.opened = false) :
    exchangeOn q w reads s = some (.fail .notOpen [], reads) := by
  simp [exchangeOn, ho]

theorem exchangeOn_nil (w : WriteResult) (ho : s.opened = true) :
    exchangeOn [] w reads s = some (.fail .emptyInput [], reads) := by
  simp [exchangeOn, ho, encodeRequest, appendCrc]

variable {frame : List Byte} (ho : s.opened = true) (hf : encodeRequest q = .ok frame)
include ho hf

theorem exchangeOn_short {w : WriteResult} (hw : w ≠ .written frame.length) :
    exchangeOn q w reads s = some (.fail .writeError [], reads) := by
  simp [exchangeOn, ho, hf, hw]

theorem exchangeOn_full : exchangeOn q (.written frame.length) reads s =
    (receiveLoop reads (receiveInit s)).map (Prod.map replyVerdict id) := by
  simp only [exchangeOn, ho, hf, Bool.not_true, Bool.false_eq_true, if_false, ne_eq, not_true_eq_false]
  rcases receiveLoop reads (receiveInit s) with _ | ⟨_ | _, rest⟩ <;> rfl

end ScriptFunction

/-! ### The first step -/

/-- What an operation that was begun in `s` leaves when it has answered `v` and left `rest` in the queue. -/
def answered (s t : State) (v : Verdict) (rest : List ReadResult) : Prop :=
  t.busy = false ∧ t.exchStep = 0#3 ∧ t.rsp = v.response :: s.rsp ∧ t.line.reads = rest

/-- The first step of an EXCHANGE is the whole of it, and no read is looked at, or the transport has taken the frame and
the reply is awaited (43_exchange.md R76, log 2). -/
theorem exchange_first_step {s : State} {q : List Byte} {w : WriteResult} {ws : List WriteResult}
    (hb : s.busy = false) (hc : s.caller = [.call ⟨5#3, .bytes q⟩])
    (ha : s.cfg.maxPayload.admits q.length = true) (hw : s.line.writes = w :: ws)
    (hclip : ∀ frame, encodeRequest q = .ok frame → clipWrite frame.length w = w) :
    ∃ u, step s = .next u ∧
      ((∃ v, exchangeOn q w s.line.reads s = some (v, s.line.reads) ∧ answered s u v s.line.reads) ∨
       ∃ frame, replyAwaited s u frame ∧ exchangeOn q w s.line.reads s =
         (receiveLoop s.line.reads (receiveInit s)).map (Prod.map replyVerdict id)) := by
  cases ho : s.opened with
  | false =>
    have hstep : step s = .next (setRsp (⟨9#4, []⟩ :: s.rsp) (setExchStep 0#3 (setCaller [] s))) :=
      (step_call (i := .exchange q) hb hc rfl).trans (exec_exchange_closed (s := setCaller [] s) hb ho ha)
    exact ⟨_, hstep, .inl ⟨_, exchangeOn_closed _ w ho, hb, rfl, rfl, rfl⟩⟩
  | true =>
    have hstep := step_exchange hb ho hc ha
    obtain ⟨_, _, _, _, _, ⟨rfl, hhead⟩ | ⟨_, frame, w', hf, hline, hanswer, hwrite⟩⟩ :=
      exchangeHead_cases q (setBusy true (setCaller [] s))
    · exact ⟨_, hstep, .inl ⟨_, exchangeOn_nil _ w ho, by rw [hhead]; exact ⟨rfl, rfl, rfl, rfl⟩⟩⟩
    · obtain rfl : w' = w := by
        rw [hanswer, write_scripted (t := (setBusy true (setCaller [] s)).line) hw, hclip frame hf]
      obtain ⟨rfl, _⟩ | ⟨hshort, hbusy, hzero, hrsp, _⟩ := hwrite
      · obtain ⟨u, hbegin, hawait⟩ := exchange_begins hb ho hc ha hf hw
        exact ⟨u, hbegin, .inr ⟨frame, hawait, exchangeOn_full _ ho hf⟩⟩
      · exact ⟨_, hstep, .inl ⟨_, exchangeOn_short _ ho hf hshort, hbusy, hzero, hrsp, by simp [hline]⟩⟩

/-! ### The receive of step 4 -/

section ReplyAwaited

variable {s u : State} {frame : List Byte} (h : replyAwaited s u frame)
include h

theorem receiveLoop_awaited (reads : List ReadResult) :
    receiveLoop reads u = receiveLoop reads (receiveInit s) := by
  obtain ⟨_, _, _, hcfg, ⟨hrx, hcnt, hmem⟩, _⟩ := h
  exact receiveLoop_congr reads ⟨hcfg, hrx, hcnt, hmem⟩

/-- Step 4 over reads with which its loop ends: the answer is the loop's, after steps 5 and 6 on a body. -/
theorem reply_ends {reads rest : List ReadResult} {v : Verdict} (hq : s.line.reads = reads ++ rest)
    (hr : ∀ r ∈ reads, r.within s.cfg.readCapacity = true)
    (hl : receiveLoop reads (receiveInit s) = some (v, [])) :
    ∃ t, runsTo reads.length u t ∧ answered s t (replyVerdict v) rest := by
  have hlu := (receiveLoop_awaited h reads).trans hl
  obtain ⟨hrec, hfour, hcaller, hcfg, _, hrsp, hreads, _⟩ := h
  obtain ⟨t, hrun, hbusy, hzero, _, hrsp', hrest, _⟩ :=
    receive_ends hrec hcaller (hreads.trans hq) (by rwa [hcfg]) hlu
  exact ⟨t, hrun, hbusy, hzero, by rw [hrsp', closingVerdict_exchange hfour, hrsp], hrest⟩

/-- Step 4 over a script that its loop outlasts (70_reset_and_hazards.md R110). -/
theorem reply_still_awaited (hr : ∀ r ∈ s.line.reads, r.within s.cfg.readCapacity = true)
    (hl : receiveLoop s.line.reads (receiveInit s) = none) :
    ∃ t, runsTo s.line.reads.length u t ∧ receiveGoesOn s t [] ∧ t.exchStep = 4#3 := by
  have hlu := (receiveLoop_awaited h s.line.reads).trans hl
  obtain ⟨hrec, hfour, hcaller, hcfg, _, hrsp, hreads, _⟩ := h
  obtain ⟨t, hrun, ⟨hrec', hrsp', hrest⟩, _⟩ :=
    receive_goes_on (rest := []) hrec hcaller (by simpa using hreads) (by rwa [hcfg]) hlu
  obtain ⟨_, hexch⟩ := runsTo_unasked hcaller hrun (receiving_iff.mp hrec').1
  exact ⟨t, hrun, ⟨hrec', hrsp'.trans hrsp, hrest⟩, hexch.trans hfour⟩

end ReplyAwaited

end Sys2Proof.Machine

namespace Sys2Proof.Proofs

open Sys2Proof.Machine Sys2Proof.Safety

/-- Settles O54: by whether the first step is the whole EXCHANGE, then by whether the loop of step 4 ends within the
script. -/
theorem exchangeRunIsTheScriptFunction : Obligations.ExchangeRunIsTheScriptFunction := by
  intro s q w ws hb hc ha hw hclip hr
  obtain ⟨u, hstep, ⟨v, hon, hbusy, hzero, hrsp, hreads⟩ | ⟨frame, hawait, hon⟩⟩ :=
    exchange_first_step hb hc ha hw hclip
  · rw [hon]
    refine ⟨?_, by simp⟩
    rintro _ _ ⟨⟩
    exact ⟨0, u, runsTo_succ hstep (runsTo_zero u), Nat.zero_add _, hrsp, hreads, hbusy, hzero⟩
  · rw [hon]
    constructor
    · intro v rest hl
      obtain ⟨⟨v, rest⟩, hloop, ⟨⟩⟩ := Option.map_eq_some_iff.mp hl
      obtain ⟨used, hq, hused⟩ := receiveLoop_consumes hloop
      obtain ⟨t, hrun, hbusy, hzero, hrsp, hreads⟩ :=
        reply_ends hawait hq (fun r hm => hr r (by rw [hq]; exact List.mem_append_left _ hm)) hused
      exact ⟨_, t, runsTo_succ hstep hrun, by rw [hq]; exact List.length_append.symm, hrsp, hreads, hbusy, hzero⟩
    · intro hl
      obtain ⟨t, hrun, ⟨hrec, hrsp, hreads⟩, hfour⟩ :=
        reply_still_awaited hawait hr (Option.map_eq_none_iff.mp hl)
      exact ⟨t, runsTo_succ hstep hrun, hrec, hfour, hrsp, hreads⟩

/-- Settles O55: `exec_exchange_closed`, for every request the port takes. -/
theorem notOpenComesFirst : Obligations.NotOpenComesFirst :=
  fun _ _ hb ho ha => exec_exchange_closed hb ho ha

/-- Settles O56: between operations `EXCH_STEP` is 0, so failure entry adds the outcome alone. -/
theorem reservedCodeAnswersIllegalOp : Obligations.ReservedCodeAnswersIllegalOp := by
  intro s hinv hb
  obtain ⟨_, hzero, _⟩ := idle_of_stepInv hinv hb
  rw [exec_reservedOp7 hb, setExchStep_zero hzero]
  rfl

end Sys2Proof.Proofs

/-! PROOFS. The empty input (60_exceptions.md R81): each of the five commands with a byte input tests for it first, and
the empty reply body of an EXCHANGE is found in its step 5. -/

namespace Sys2Proof.Machine

/-- On the empty input each of the four codec commands unfolds to this one, with `EmptyInput` as its failure. -/
theorem acceptBytes_nil_fails {s : State} (f : Failure) (hb : s.busy = false)
    (ha : s.cfg.maxPayload.admits 0 = true) :
    acceptBytes [] s (fun u => .next (takeFailure false f [] u)) = .next (takeFailure false f [] (setBusy true s)) :=
  acceptBytes_idle (data := []) _ hb ha

/-- The request's test is in step 1 (43_exchange.md R76), and failure entry leaves no trace of the step. -/
theorem exec_exchange_nil {s : State} (hb : s.busy = false) (ho : s.opened = true)
    (ha : s.cfg.maxPayload.admits 0 = true) :
    exec (.exchange []) s = .next (takeFailure false .emptyInput [] (setBusy true s)) := by
  rw [exec_exchange (q := []) hb ho ha, exchangeHead_nil]
  rfl

/-- Step 5 finds an empty reply body, so step 6 computes no checksum (43_exchange.md R76). -/
theorem decodeReply_nil : decodeReply [] = .fail .emptyInput [] := rfl

end Sys2Proof.Machine

namespace Sys2Proof.Proofs

open Sys2Proof.Machine

/-- Settles O28: each command takes failure entry as soon as it is accepted, and `exchangeTail_effect` says what step 5
of an EXCHANGE makes of an empty reply body. -/
theorem emptyInputIsReported : Obligations.EmptyInputIsReported := by
  refine ⟨fun s hb ha i hi => ?command, fun s hb hstep hr hbody => ?reply⟩
  case command =>
    have hfails : exec i s = .next (takeFailure false .emptyInput [] (setBusy true s)) := by
      obtain rfl | rfl | rfl | rfl | ⟨rfl, ho⟩ := hi
      · exact acceptBytes_nil_fails .emptyInput hb ha
      · exact acceptBytes_nil_fails .emptyInput hb ha
      · exact acceptBytes_nil_fails .emptyInput hb ha
      · exact acceptBytes_nil_fails .emptyInput hb ha
      · exact exec_exchange_nil hb ho ha
    rw [hfails, takeFailure_accepted _ _ hb]
    rfl
  case reply =>
    refine ⟨_, exec_rxEnd (receiving_iff.mpr ⟨hb, .inr hstep⟩) hr, ?_⟩
    obtain ⟨hrsp, hbusy, _, _, _, hline, _⟩ := exchangeTail_effect [] (receiveInit s)
    rw [resume_done_exchange _ hstep, hbody]
    rw [decodeReply_nil] at hrsp
    exact ⟨hrsp, hline, hbusy⟩

end Sys2Proof.Proofs
